-- ==== Sys2Proof/Word.lean ====
section
/-! DEFINITION. The plain data of the block's interface: bytes, 16-bit fields, the Reading, and the
words a host presents (spec/00_scope.md R9, spec/10_state.md R37, spec/40_host_interface.md R90 to R97). -/

namespace Sys2Proof

/-- A byte, numbered 7 down to 0, always unsigned (R9). -/
abbrev Byte := BitVec 8

/-- A 16-bit unsigned reading field (R8, R37). -/
abbrev Field := BitVec 16

/-- The raw 4-bit phase register (R20, R22). -/
abbrev PhaseCode := BitVec 4

/-- The 12-bit selector word `phase[3:0] ++ byte[7:0]` (R73). -/
abbrev Selector := BitVec 12

/-- One decoded pair of concentrations, in tenths of µg/m³ (R37). -/
structure Reading where
  pm25 : Field
  pm10 : Field
deriving DecidableEq, Repr

/-- What a host could ask of the private state, and which no operation of the block grants (R94). -/
inductive PrivateRequest where
  | writeCounter (index value : Nat)
  | setPhase (code : PhaseCode)
  | readPhase
  | readPending
  | readChecksum
deriving DecidableEq, Repr

/-- One thing the host presents to the block, in its order (R58, R97).
`port` is the input pins at one rising edge: `pins` is `{rst, in_valid}` (R83), and `inByte` is `in_byte`.
`query` is a QUERY between edges, its index as the host wrote it (R93).
`request` is a request for private state (R94). -/
inductive HostWord where
  | port (pins : BitVec 2) (inByte : Byte)
  | query (index : Nat)
  | request (what : PrivateRequest)
deriving DecidableEq, Repr

end Sys2Proof
end

