-- ==== Sys2Proof/Config.lean ====
section
/-! DEFINITION. The one open parameter of the block, COUNTER_WIDTH (spec/00_scope.md R8). No rule
leaves a value free, so there is no free value here. -/

namespace Sys2Proof

/-- The counter width W that `State.reset` is built at: the test vectors' W (R8).
DESIGN CHOICE, unsafe: the spec leaves W open (D4), and only claims that start from `State.reset`
itself depend on this number; every step reads W from the state's own `counterWidth` (log entry 1). -/
def Config.counterWidth : Nat := 32

end Sys2Proof
end

