-- ==== Sys2Proof/Machine/Constants.lean ====
section
/-! DEFINITION. The frame's constants and the phase codes (spec/00_scope.md R8, spec/10_state.md R22,
spec/30_encoding.md R71). -/

namespace Sys2Proof

/-- HEADER, the byte at frame offset 0 (R71). -/
def header : Byte := 0xAA#8

/-- COMMAND, the byte at frame offset 1 (R71). -/
def command : Byte := 0xC0#8

/-- TAIL, the byte expected at frame offset 9 (R71). -/
def tail : Byte := 0xAB#8

/-- The value `running_checksum` is cleared to, at RESET and at HDR_ACCEPT (R40, R110). -/
def checksumClear : Byte := 0x00#8

/-! The ten phases in their strict order (R22). -/

def Phase.awaitHeader : PhaseCode := 0#4
def Phase.awaitCommand : PhaseCode := 1#4
def Phase.data1 : PhaseCode := 2#4
def Phase.data2 : PhaseCode := 3#4
def Phase.data3 : PhaseCode := 4#4
def Phase.data4 : PhaseCode := 5#4
def Phase.data5 : PhaseCode := 6#4
def Phase.data6 : PhaseCode := 7#4
def Phase.awaitChecksum : PhaseCode := 8#4
def Phase.awaitTail : PhaseCode := 9#4

/-- `next` of R23: the successor in the strict order, and `next(AwaitTail) = AwaitHeader`. -/
def Phase.next (p : PhaseCode) : PhaseCode :=
  if p = Phase.awaitTail then Phase.awaitHeader else p + 1#4

/-- The ten codes a run produces; 10..15 are never produced (R22). -/
abbrev Phase.Legal (p : PhaseCode) : Prop := p.toNat ≤ 9

end Sys2Proof
end

