-- ==== Sys2Proof/Syntax.lean ====
section
/-! DEFINITION. The instructions: one constructor per row of spec/opcode_table.json. -/

namespace Sys2Proof

/-- The rows of the decode table (spec/30_encoding.md R74), of the port format and of the query format
(R83). A constructor's arguments are the bits its row leaves free: the input byte `b` (R76), the phase
bits `p` of the two ILLEGAL_PHASE rows, and the query index `i`. -/
inductive Instr where
  /-- HDR_ACCEPT, R110. -/
  | hdrAccept
  /-- HDR_REJECT, R111. -/
  | hdrReject (b : Byte)
  /-- CMD_ACCEPT, R112. -/
  | cmdAccept
  /-- CMD_REJECT, R113. -/
  | cmdReject (b : Byte)
  /-- DATA1, R120. -/
  | data1 (b : Byte)
  /-- DATA2, R121. -/
  | data2 (b : Byte)
  /-- DATA3, R122. -/
  | data3 (b : Byte)
  /-- DATA4, R123. -/
  | data4 (b : Byte)
  /-- DATA5, R124. -/
  | data5 (b : Byte)
  /-- DATA6, R125. -/
  | data6 (b : Byte)
  /-- CKSUM_MATCH, R130. -/
  | cksumMatch (b : Byte)
  /-- CKSUM_MISMATCH, R131. -/
  | cksumMismatch (b : Byte)
  /-- TAIL_OK, R132. -/
  | tailOk
  /-- TAIL_BAD, R133. -/
  | tailBad (b : Byte)
  /-- ILLEGAL_PHASE, phase codes 10 and 11 (`101p`), R134. -/
  | illegalPhaseLow (p : BitVec 1) (b : Byte)
  /-- ILLEGAL_PHASE, phase codes 12 to 15 (`11pp`), R134. -/
  | illegalPhaseHigh (p : BitVec 2) (b : Byte)
  /-- RESET, R95. It has no operand: `in_valid` and `in_byte` are ignored. -/
  | reset
  /-- FEED, R90. -/
  | feed (b : Byte)
  /-- IDLE, R99. -/
  | idle
  /-- QUERY, R93. -/
  | query (i : BitVec 1)
deriving DecidableEq, Repr

end Sys2Proof
end

