-- ==== Sys2Proof/WellFormed.lean ====
section
/-! DEFINITION. When an instruction is one its row can produce (spec/30_encoding.md R74: the conditions
"by priority"). -/

namespace Sys2Proof

/-- A reject row carries a byte that the accept row above it does not match (R74, "by priority"). -/
def Instr.wellFormed : Instr → Bool
  | .hdrReject b => b != header
  | .cmdReject b => b != command
  | .tailBad b => b != tail
  | .hdrAccept | .cmdAccept | .data1 _ | .data2 _ | .data3 _ | .data4 _ | .data5 _ | .data6 _
  | .cksumMatch _ | .cksumMismatch _ | .tailOk | .illegalPhaseLow _ _ | .illegalPhaseHigh _ _
  | .reset | .feed _ | .idle | .query _ => true

/-- The condition on the state that the two checksum rows carry beside their word: `byte ==
running_checksum`, or its failure "by priority" (R73, R74). -/
def Instr.conditionHolds (rc : Byte) : Instr → Bool
  | .cksumMatch b => b == rc
  | .cksumMismatch b => b != rc
  | .hdrAccept | .hdrReject _ | .cmdAccept | .cmdReject _ | .data1 _ | .data2 _ | .data3 _
  | .data4 _ | .data5 _ | .data6 _ | .tailOk | .tailBad _ | .illegalPhaseLow _ _
  | .illegalPhaseHigh _ _ | .reset | .feed _ | .idle | .query _ => true

end Sys2Proof
end

