-- ==== Sys2Proof/Decode.lean ====
section
/-! DEFINITION. The decoder of the three formats of spec/30_encoding.md R83, the encoder, and the
listing pseudo-instructions of R81. -/

namespace Sys2Proof

/-! ## The selector word (R73, R74) -/

/-- `sel[11:0] = phase[3:0] ++ byte[7:0]` (R73). -/
def selWord (phase : PhaseCode) (b : Byte) : Selector := phase ++ b

/-- `sel[7:0]`, the operand of every row (R76). -/
def selByte (sel : Selector) : Byte := sel.extractLsb' 0 8

/-- `sel[11:8]`, the phase code (R73). -/
def selPhase (sel : Selector) : PhaseCode := sel.extractLsb' 8 4

/-- One row of R74's table: pattern, mask, whether it carries the condition `byte ==
running_checksum`, and the instruction its word stands for. -/
structure SelRow where
  pattern : Selector
  mask : Selector
  ifChecksum : Bool
  build : Selector → Instr

/-- A row matches when `(sel & mask) == match` and its condition, if any, holds (R74). -/
def SelRow.hits (r : SelRow) (rc : Byte) (sel : Selector) : Bool :=
  (sel &&& r.mask == r.pattern) && (!r.ifChecksum || selByte sel == rc)

/-- R74's table, in priority order. -/
def selRows : List SelRow :=
  [ ⟨0x0AA#12, 0xFFF#12, false, fun _ => .hdrAccept⟩,
    ⟨0x000#12, 0xF00#12, false, fun w => .hdrReject (selByte w)⟩,
    ⟨0x1C0#12, 0xFFF#12, false, fun _ => .cmdAccept⟩,
    ⟨0x100#12, 0xF00#12, false, fun w => .cmdReject (selByte w)⟩,
    ⟨0x200#12, 0xF00#12, false, fun w => .data1 (selByte w)⟩,
    ⟨0x300#12, 0xF00#12, false, fun w => .data2 (selByte w)⟩,
    ⟨0x400#12, 0xF00#12, false, fun w => .data3 (selByte w)⟩,
    ⟨0x500#12, 0xF00#12, false, fun w => .data4 (selByte w)⟩,
    ⟨0x600#12, 0xF00#12, false, fun w => .data5 (selByte w)⟩,
    ⟨0x700#12, 0xF00#12, false, fun w => .data6 (selByte w)⟩,
    ⟨0x800#12, 0xF00#12, true, fun w => .cksumMatch (selByte w)⟩,
    ⟨0x800#12, 0xF00#12, false, fun w => .cksumMismatch (selByte w)⟩,
    ⟨0x9AB#12, 0xFFF#12, false, fun _ => .tailOk⟩,
    ⟨0x900#12, 0xF00#12, false, fun w => .tailBad (selByte w)⟩,
    ⟨0xA00#12, 0xE00#12, false, fun w => .illegalPhaseLow (w.extractLsb' 8 1) (selByte w)⟩,
    ⟨0xC00#12, 0xC00#12, false, fun w => .illegalPhaseHigh (w.extractLsb' 8 2) (selByte w)⟩ ]

/-- The first matching row wins (R74). `rc` is `running_checksum`, which is no part of the word (R73). -/
def decodeSel (rc : Byte) (sel : Selector) : Option Instr :=
  (selRows.find? (·.hits rc sel)).map (·.build sel)

/-! ## The port pattern and the query index (R83) -/

/-- One row of the port format: pattern and mask over `{rst, in_valid}`. -/
structure PortRow where
  pattern : BitVec 2
  mask : BitVec 2
  build : Byte → Instr

/-- `1v` is RESET whatever `in_valid` is, `01` is FEED, `00` is IDLE (R83). -/
def portRows : List PortRow :=
  [ ⟨0b10#2, 0b10#2, fun _ => .reset⟩,
    ⟨0b01#2, 0b11#2, fun b => .feed b⟩,
    ⟨0b00#2, 0b11#2, fun _ => .idle⟩ ]

/-- The instruction of one rising edge (R98). -/
def decodePort (pins : BitVec 2) (inByte : Byte) : Option Instr :=
  (portRows.find? fun r => pins &&& r.mask == r.pattern).map (·.build inByte)

/-- A QUERY names register 0 or 1; any other index names none (R93). -/
def decodeQuery (index : Nat) : Option Instr :=
  if index < 2 then some (.query (BitVec.ofNat 1 index)) else none

/-! ## A host word -/

/-- Why a host word is no operation of the block. -/
inductive DecodeError where
  /-- A QUERY index that names no register (R93). -/
  | queryIndex (index : Nat)
  /-- A request for private state, which no operation grants (R94). -/
  | privateState (what : PrivateRequest)
  /-- A port pattern that no row matches: there is none (R83), so this is never answered. -/
  | noPortRow (pins : BitVec 2)
deriving DecidableEq, Repr

/-- What the host asks for next. FEED's own selector row is chosen when FEED executes (R90). -/
def decode : HostWord → Except DecodeError Instr
  | .port pins b =>
    match decodePort pins b with
    | some i => .ok i
    | none => .error (.noPortRow pins)
  | .query index =>
    match decodeQuery index with
    | some i => .ok i
    | none => .error (.queryIndex index)
  | .request what => .error (.privateState what)

/-! ## The encoder -/

/-- A word of one of the three formats (R83). -/
inductive Encoding where
  | sel12 (w : Selector)
  | port2 (pins : BitVec 2) (inByte : Byte)
  | qidx1 (i : BitVec 1)
deriving DecidableEq, Repr

/-- The word of each row, from R74's patterns and R83's three formats.
RESET's two ignored inputs are written as zeros. -/
def encode : Instr → Encoding
  | .hdrAccept => .sel12 0x0AA#12
  | .hdrReject b => .sel12 (0x0#4 ++ b)
  | .cmdAccept => .sel12 0x1C0#12
  | .cmdReject b => .sel12 (0x1#4 ++ b)
  | .data1 b => .sel12 (0x2#4 ++ b)
  | .data2 b => .sel12 (0x3#4 ++ b)
  | .data3 b => .sel12 (0x4#4 ++ b)
  | .data4 b => .sel12 (0x5#4 ++ b)
  | .data5 b => .sel12 (0x6#4 ++ b)
  | .data6 b => .sel12 (0x7#4 ++ b)
  | .cksumMatch b => .sel12 (0x8#4 ++ b)
  | .cksumMismatch b => .sel12 (0x8#4 ++ b)
  | .tailOk => .sel12 0x9AB#12
  | .tailBad b => .sel12 (0x9#4 ++ b)
  | .illegalPhaseLow p b => .sel12 (0b101#3 ++ p ++ b)
  | .illegalPhaseHigh p b => .sel12 (0b11#2 ++ p ++ b)
  | .reset => .port2 0b10#2 0#8
  | .feed b => .port2 0b01#2 b
  | .idle => .port2 0b00#2 0#8
  | .query i => .qidx1 i

/-- The decoder of a word whose format is known, with the checksum that row 11's condition reads. -/
def decodeEncoding (rc : Byte) : Encoding → Option Instr
  | .sel12 w => decodeSel rc w
  | .port2 pins b => decodePort pins b
  | .qidx1 i => decodeQuery i.toNat

/-! ## The opcode table's words -/

/-- The instruction of a word numbered as spec/opcode_table.json numbers it, the format told by its
width: 1 bit is the query index, up to 8 the port pattern (its `in_byte` has no bits in the table and is
zero), up to 16 the selector word. The bits that fill a row up to whole bytes belong to no format and are
not read. The checksum rows are read as right after reset, with `running_checksum` clear (log entry 5). -/
def decodeTableWord (nbits w : Nat) : Option Instr :=
  if nbits ≤ 1 then decodeQuery w
  else if nbits ≤ 8 then decodePort (BitVec.ofNat 2 w) 0#8
  else if nbits ≤ 16 then decodeSel checksumClear (BitVec.ofNat 12 w)
  else none

/-! ## Listing pseudo-instructions (R80, R81) -/

/-- The port word of `FEED b`. -/
def feedWord (b : Byte) : HostWord := .port 0b01#2 b

/-- `CS(b2..b7)`: the 8-bit sum, with no complement, no carry-around and no seed (R72). -/
def frameChecksum (b2 b3 b4 b5 b6 b7 : Byte) : Byte := b2 + b3 + b4 + b5 + b6 + b7

/-- Low and high byte of a 16-bit value (R51). -/
def lowByte (v : Field) : Byte := v.extractLsb' 0 8

def highByte (v : Field) : Byte := v.extractLsb' 8 8

/-- `FRAME p25, p10, id, ck=X` and `tail=T`: the ten bytes with the checksum and the tail given (R81). -/
def frameBytesWith (p25 p10 id : Field) (ck t : Byte) : List Byte :=
  [header, command, lowByte p25, highByte p25, lowByte p10, highByte p10, lowByte id, highByte id, ck, t]

/-- The checksum byte of `FRAME p25, p10, id` (R81). -/
def fieldsChecksum (p25 p10 id : Field) : Byte :=
  frameChecksum (lowByte p25) (highByte p25) (lowByte p10) (highByte p10) (lowByte id) (highByte id)

/-- `FRAME p25, p10, id` (R81). -/
def frameBytes (p25 p10 id : Field) : List Byte :=
  frameBytesWith p25 p10 id (fieldsChecksum p25 p10 id) tail

/-- `BYTES b1 ... bn`: one FEED for each, in order (R81). -/
def bytesWords (bs : List Byte) : List HostWord := bs.map feedWord

end Sys2Proof
end

