-- ==== Sys2Proof/Machine/State.lean ====
section
/-! DEFINITION. The state of the block (spec/10_state.md R20), its reset (R40), and the reasons a step
can stop. -/

namespace Sys2Proof.Machine

/-- The faults of the block. -/
inductive Fault where
  /-- `IllegalPhase(code)`: raised by the two ILLEGAL_PHASE rows, that is by a FEED while the raw phase
  register holds 10..15 (R134, R164). Safe: the spec's own model fault, and no run from reset reaches it. -/
  | illegalPhase (code : PhaseCode)
deriving DecidableEq, Repr

/-- The refusals of the model. -/
inductive Refusal where
  /-- An instruction without a meaning; no arm of `exec` answers it now. Safe. -/
  | notModelled (mnemonic : String)
  /-- Raised by the fetch: a host word that is no operation of the block, a QUERY index that names no
  register (R93) or a request for private state (R94). Safe: the spec says it is refused. -/
  | noOperation (why : DecodeError)
  /-- Raised by a SEL12 row executed while the selector word does not select it; no step does so. Safe:
  R74 gives such a row no effect (log entry 4). -/
  | rowNotSelected
deriving DecidableEq, Repr

/-- What the last host operation returned (R90, R93); the model's own channel (log entry 3). -/
inductive HostResult where
  /-- Nothing: no operation yet, or a RESET (R95). -/
  | nothing
  /-- A FEED's result, `None` or `Some(Reading)` (R11, R91). -/
  | fed (r : Option Reading)
  /-- A QUERY's count (R93). -/
  | count (n : Nat)
deriving DecidableEq, Repr

/-- The state. The first nine fields are R20's; the last three are the model's own. -/
structure State where
  /-- The phase register, raw 4 bits (R22). -/
  phase : PhaseCode
  /-- The pending pm2.5 field (R25). -/
  pendPm25 : Field
  /-- The pending pm10 field (R26). -/
  pendPm10 : Field
  /-- The checksum accumulator (R27). -/
  runningChecksum : Byte
  /-- The W-bit counter of rejected bytes (R31). -/
  badBytes : Nat
  /-- The W-bit counter of failed checksums (R32). -/
  checksumFailures : Nat
  /-- The wrapper's one flag (R38, R100). -/
  outValid : Bool
  /-- The wrapper's output registers (R37, R100). -/
  outPm25 : Field
  outPm10 : Field
  /-- COUNTER_WIDTH = W (R8, R33), the open parameter; no step changes it (log entry 1). -/
  counterWidth : Nat
  /-- What the host presents next, oldest first (R58, R59; log entry 2). -/
  input : List HostWord
  /-- What the last host operation returned (log entry 3). -/
  result : HostResult
deriving DecidableEq, Repr

/-- The state after RESET, at counter width `w`: R40's values. -/
def State.resetAt (w : Nat) : State where
  phase := Phase.awaitHeader
  pendPm25 := 0x0000#16
  pendPm10 := 0x0000#16
  runningChecksum := checksumClear
  badBytes := 0
  checksumFailures := 0
  outValid := false
  outPm25 := 0x0000#16
  outPm10 := 0x0000#16
  counterWidth := w
  input := []
  result := .nothing

/-- The machine right after reset (R40, R170). -/
def State.reset : State := State.resetAt Config.counterWidth

end Sys2Proof.Machine
end

