-- ==== Sys2Proof/Machine/Flags.lean ====
section
/-! DEFINITION. The status counters, the wrapper's output flag, and the trace labels of the error classes
(spec/10_state.md R31 to R38, spec/40_host_interface.md R98, spec/60_exceptions.md R151). -/

namespace Sys2Proof.Machine

/-- `add_W(c, 1)`: a W-bit increment, which wraps from 2^W - 1 to 0 (R33). -/
def incW (w c : Nat) : Nat := (c + 1) % 2 ^ w

/-- One more rejected byte (R31). -/
def State.countBadByte (s : State) : State := { s with badBytes := incW s.counterWidth s.badBytes }

/-- One more failed checksum (R32). -/
def State.countChecksumFailure (s : State) : State :=
  { s with checksumFailures := incW s.counterWidth s.checksumFailures }

/-- What R98 does with the result `r` of the FEED at this edge: an emission sets `out_valid` and both
output registers, any other FEED clears `out_valid`; and `r` is returned to the host (R90). -/
def State.feedReturns (r : Option Reading) (s : State) : State :=
  match r with
  | some x => { s with outValid := true, outPm25 := x.pm25, outPm10 := x.pm10, result := .fed (some x) }
  | none => { s with outValid := false, result := .fed none }

/-- The trace labels of R151. They are no port and no state (R152). -/
inductive Event where
  | none
  | reading
  | badHeader
  | badCommand
  | checksum
  | badTail
deriving DecidableEq, Repr

/-- The label codes 0..5 (R151). -/
def eventCode : Event → Nat
  | .none => 0
  | .reading => 1
  | .badHeader => 2
  | .badCommand => 3
  | .checksum => 4
  | .badTail => 5

/-- The label of a row (R151); the ILLEGAL_PHASE rows and the host operations have none. -/
def rowEvent : Instr → Option Event
  | .hdrAccept | .cmdAccept | .data1 _ | .data2 _ | .data3 _ | .data4 _ | .data5 _ | .data6 _
  | .tailOk => some .none
  | .cksumMatch _ => some .reading
  | .hdrReject _ => some .badHeader
  | .cmdReject _ => some .badCommand
  | .cksumMismatch _ => some .checksum
  | .tailBad _ => some .badTail
  | .illegalPhaseLow _ _ | .illegalPhaseHigh _ _ | .reset | .feed _ | .idle | .query _ => Option.none

/-- The label of `FEED b` in this state: that of the row it selects (R151). -/
def feedEvent (s : State) (b : Byte) : Option Event :=
  (decodeSel s.runningChecksum (selWord s.phase b)).bind rowEvent

end Sys2Proof.Machine
end

