-- ==== Sys2Proof/Machine/Operands.lean ====
section
/-! DEFINITION. What the rows do with the operand byte (spec/30_encoding.md R76), and the register a
QUERY index names (spec/10_state.md R36). -/

namespace Sys2Proof.Machine

/-- `zext_16(b)`: the low half of a pending field, its high byte cleared (R51, R120, R122). -/
def zext16 (b : Byte) : Field := b.setWidth 16

/-- `zext_16(v[7:0]) | (zext_16(b) << 8)`: the byte into the high half (R51, R121, R123). -/
def withHighByte (v : Field) (b : Byte) : Field := zext16 (lowByte v) ||| (zext16 b <<< 8)

/-- `add_8`, unsigned addition modulo 256 with no carry kept (R127). -/
def add8 (sum b : Byte) : Byte := sum + b

/-- The status register an index names: 0 is `bad_bytes`, 1 is `checksum_failures` (R36, R93). -/
def readCounter (i : BitVec 1) (s : State) : Nat :=
  if i = 0#1 then s.badBytes else s.checksumFailures

end Sys2Proof.Machine
end

