-- ==== Sys2Proof/Machine/Ops.lean ====
section
/-! DEFINITION. The shared operations: running a selected row, raising the one fault, resetting, and
fetching what the host presents next. The block has no trap entry and no return from one
(spec/60_exceptions.md R155, R156). -/

namespace Sys2Proof.Machine

/-- The outcome type of this machine. -/
abbrev Answer := Host.Outcome State Fault Refusal

/-- `phase <- P` (R10, R23). -/
def State.goto (p : PhaseCode) (s : State) : State := { s with phase := p }

/-- A row that its selector word selects takes its effect and returns `r`; all its writes happen together
at the end of the FEED (R10). A row has no effect where it is not selected (R74; log entry 4). -/
def runRow (selected : Bool) (r : Option Reading) (effect : State) : Answer :=
  if selected then .next (effect.feedReturns r) else .refused .rowNotSelected

/-- `raise IllegalPhase(code)`, the model's only fault (R134, R164). -/
def raiseIllegalPhase (selected : Bool) (code : PhaseCode) : Answer :=
  if selected then .fault (.illegalPhase code) else .refused .rowNotSelected

/-- RESET writes every field of R20 with its value of R40 (R95, R102). The counter width is no register,
and what the host has still to present stays to be presented (log entry 10). -/
def State.takeReset (s : State) : State :=
  { State.resetAt s.counterWidth with input := s.input }

/-- The next operation and the state once it is taken from the host: the oldest word the host presents
or, where it presents nothing, an idle edge (R58, R99). -/
def fetch (s : State) : Except Refusal (Instr × State) :=
  match s.input with
  | [] => .ok (.idle, s)
  | w :: rest =>
    match decode w with
    | .ok i => .ok (i, { s with input := rest })
    | .error e => .error (.noOperation e)

/-- `s` with a word of the opcode table where `fetch` takes the next operation. A selector word is the
phase and the byte of a FEED (R73), so it sets the phase register and presents a FEED of its byte; for a
word of the two checksum rows it also clears `running_checksum`, which their condition reads (log entry 5). -/
def placeTableWord (s : State) (nbits w : Nat) : State :=
  let sel : Selector := BitVec.ofNat 12 w
  if nbits ≤ 1 then { s with input := .query w :: s.input }
  else if nbits ≤ 8 then { s with input := .port (BitVec.ofNat 2 w) 0#8 :: s.input }
  else if nbits ≤ 16 then
    { s with
      phase := selPhase sel
      runningChecksum :=
        if selPhase sel = Phase.awaitChecksum then checksumClear else s.runningChecksum
      input := feedWord (selByte sel) :: s.input }
  else s

end Sys2Proof.Machine
end

