-- ==== Sys2Proof/Machine/ChecksumTail.lean ====
section
/-! DEFINITION. The checksum and tail rows and the unreachable phase codes (spec/43_checksum_tail.md). -/

namespace Sys2Proof.Machine

/-- CKSUM_MATCH (R130): the reading is emitted, before the tail is seen. -/
def execCksumMatch (b : Byte) (s : State) : Answer :=
  runRow (s.phase == Phase.awaitChecksum && b == s.runningChecksum)
    (some { pm25 := s.pendPm25, pm10 := s.pendPm10 })
    (s.goto Phase.awaitTail)

/-- CKSUM_MISMATCH (R131): the frame is dropped and counted. -/
def execCksumMismatch (b : Byte) (s : State) : Answer :=
  runRow (s.phase == Phase.awaitChecksum && b != s.runningChecksum) none
    (s.countChecksumFailure.goto Phase.awaitHeader)

/-- TAIL_OK (R132): the expected tail byte. -/
def execTailOk (s : State) : Answer :=
  runRow (s.phase == Phase.awaitTail) none (s.goto Phase.awaitHeader)

/-- TAIL_BAD (R133): a wrong tail byte is counted; the reading already emitted stands. -/
def execTailBad (b : Byte) (s : State) : Answer :=
  runRow (s.phase == Phase.awaitTail && b != tail) none
    (s.countBadByte.goto Phase.awaitHeader)

/-- ILLEGAL_PHASE for codes 10 and 11 (R134), whatever the byte. -/
def execIllegalPhaseLow (p : BitVec 1) (s : State) : Answer :=
  raiseIllegalPhase (s.phase == 0b101#3 ++ p) s.phase

/-- ILLEGAL_PHASE for codes 12 to 15 (R134), whatever the byte. -/
def execIllegalPhaseHigh (p : BitVec 2) (s : State) : Answer :=
  raiseIllegalPhase (s.phase == 0b11#2 ++ p) s.phase

end Sys2Proof.Machine
end

