-- ==== Sys2Proof/Machine/HeaderCommand.lean ====
section
/-! DEFINITION. The header and command rows (spec/41_header_command.md). -/

namespace Sys2Proof.Machine

/-- HDR_ACCEPT (R110): a header byte is found; the checksum is cleared. -/
def execHdrAccept (s : State) : Answer :=
  runRow (s.phase == Phase.awaitHeader) none
    { s with phase := Phase.awaitCommand, runningChecksum := checksumClear }

/-- HDR_REJECT (R111): a noise byte is counted; the phase is unchanged. -/
def execHdrReject (b : Byte) (s : State) : Answer :=
  runRow (s.phase == Phase.awaitHeader && b != header) none s.countBadByte

/-- CMD_ACCEPT (R112): the command byte follows a header. -/
def execCmdAccept (s : State) : Answer :=
  runRow (s.phase == Phase.awaitCommand) none (s.goto Phase.data1)

/-- CMD_REJECT (R113): the byte is consumed and counted, and the header search starts again. -/
def execCmdReject (b : Byte) (s : State) : Answer :=
  runRow (s.phase == Phase.awaitCommand && b != command) none
    (s.countBadByte.goto Phase.awaitHeader)

end Sys2Proof.Machine
end

