-- ==== Sys2Proof/Machine/Payload.lean ====
section
/-! DEFINITION. The payload rows (spec/42_payload.md). Each accepts any byte. -/

namespace Sys2Proof.Machine

/-- DATA1 (R120): the pm2.5 low byte; the checksum starts at the byte. -/
def execData1 (b : Byte) (s : State) : Answer :=
  runRow (s.phase == Phase.data1) none
    { s with pendPm25 := zext16 b, runningChecksum := b, phase := Phase.data2 }

/-- DATA2 (R121): the pm2.5 high byte. -/
def execData2 (b : Byte) (s : State) : Answer :=
  runRow (s.phase == Phase.data2) none
    { s with
      pendPm25 := withHighByte s.pendPm25 b
      runningChecksum := add8 s.runningChecksum b
      phase := Phase.data3 }

/-- DATA3 (R122): the pm10 low byte. -/
def execData3 (b : Byte) (s : State) : Answer :=
  runRow (s.phase == Phase.data3) none
    { s with pendPm10 := zext16 b, runningChecksum := add8 s.runningChecksum b, phase := Phase.data4 }

/-- DATA4 (R123): the pm10 high byte. -/
def execData4 (b : Byte) (s : State) : Answer :=
  runRow (s.phase == Phase.data4) none
    { s with
      pendPm10 := withHighByte s.pendPm10 b
      runningChecksum := add8 s.runningChecksum b
      phase := Phase.data5 }

/-- DATA5 (R124): the reserved/ID low byte, in the checksum only. -/
def execData5 (b : Byte) (s : State) : Answer :=
  runRow (s.phase == Phase.data5) none
    { s with runningChecksum := add8 s.runningChecksum b, phase := Phase.data6 }

/-- DATA6 (R125): the reserved/ID high byte, in the checksum only. -/
def execData6 (b : Byte) (s : State) : Answer :=
  runRow (s.phase == Phase.data6) none
    { s with runningChecksum := add8 s.runningChecksum b, phase := Phase.awaitChecksum }

end Sys2Proof.Machine
end

