-- ==== Sys2Proof/Machine/HostOps.lean ====
section
/-! DEFINITION. The host's operations (spec/40_host_interface.md). -/

namespace Sys2Proof.Machine

/-- The effect of a selector row. A port or query operation is no row of R74's table. -/
def execSelRow (i : Instr) (s : State) : Answer :=
  match i with
  | .hdrAccept => execHdrAccept s
  | .hdrReject b => execHdrReject b s
  | .cmdAccept => execCmdAccept s
  | .cmdReject b => execCmdReject b s
  | .data1 b => execData1 b s
  | .data2 b => execData2 b s
  | .data3 b => execData3 b s
  | .data4 b => execData4 b s
  | .data5 b => execData5 b s
  | .data6 b => execData6 b s
  | .cksumMatch b => execCksumMatch b s
  | .cksumMismatch b => execCksumMismatch b s
  | .tailOk => execTailOk s
  | .tailBad b => execTailBad b s
  | .illegalPhaseLow p _ => execIllegalPhaseLow p s
  | .illegalPhaseHigh p _ => execIllegalPhaseHigh p s
  | .reset | .feed _ | .idle | .query _ => .refused .rowNotSelected

/-- FEED (R90): the row that the phase, the byte and the checksum select in R74's table. -/
def execFeed (b : Byte) (s : State) : Answer :=
  match decodeSel s.runningChecksum (selWord s.phase b) with
  | some row => execSelRow row s
  | none => .refused .rowNotSelected

/-- RESET (R95). -/
def execReset (s : State) : Answer := .next s.takeReset

/-- IDLE (R99): no field changes but `out_valid`, which falls. -/
def execIdle (s : State) : Answer := .next { s with outValid := false }

/-- QUERY (R93): the count is returned, and no register is written (R56). -/
def execQuery (i : BitVec 1) (s : State) : Answer := .next { s with result := .count (readCounter i s) }

end Sys2Proof.Machine
end

