-- ==== Sys2Proof/Machine/Dispatch.lean ====
section
/-! DEFINITION. One arm per instruction. -/

namespace Sys2Proof.Machine

def exec (i : Instr) (s : State) : Host.Outcome State Fault Refusal :=
  match i with
  -- SEL12: header and command rows
  | .hdrAccept => Sys2Proof.Machine.execHdrAccept s
  | .hdrReject b => Sys2Proof.Machine.execHdrReject b s
  | .cmdAccept => Sys2Proof.Machine.execCmdAccept s
  | .cmdReject b => Sys2Proof.Machine.execCmdReject b s
  -- SEL12: payload rows
  | .data1 b => Sys2Proof.Machine.execData1 b s
  | .data2 b => Sys2Proof.Machine.execData2 b s
  | .data3 b => Sys2Proof.Machine.execData3 b s
  | .data4 b => Sys2Proof.Machine.execData4 b s
  | .data5 b => Sys2Proof.Machine.execData5 b s
  | .data6 b => Sys2Proof.Machine.execData6 b s
  -- SEL12: checksum and tail rows
  | .cksumMatch b => Sys2Proof.Machine.execCksumMatch b s
  | .cksumMismatch b => Sys2Proof.Machine.execCksumMismatch b s
  | .tailOk => Sys2Proof.Machine.execTailOk s
  | .tailBad b => Sys2Proof.Machine.execTailBad b s
  | .illegalPhaseLow p _ => Sys2Proof.Machine.execIllegalPhaseLow p s
  | .illegalPhaseHigh p _ => Sys2Proof.Machine.execIllegalPhaseHigh p s
  -- PORT2 and QIDX1
  | .reset => Sys2Proof.Machine.execReset s
  | .feed b => Sys2Proof.Machine.execFeed b s
  | .idle => Sys2Proof.Machine.execIdle s
  | .query k => Sys2Proof.Machine.execQuery k s

end Sys2Proof.Machine
end

