-- ==== Sys2Proof/Machine/Step.lean ====
section
/-! DEFINITION. One step: one rising edge (spec/40_host_interface.md R98), or one QUERY between edges. -/

namespace Sys2Proof.Machine

/-- The next operation the host presents, executed; a word that is no operation is refused by name. -/
def step (s : State) : Host.Outcome State Fault Refusal :=
  match fetch s with
  | .ok (i, t) => exec i t
  | .error r => .refused r

/-- `s` with the word `w` of an opcode table row placed where the next step takes its operation. -/
def State.withFetchWord (s : State) (nbits w : Nat) : State := placeTableWord s nbits w

end Sys2Proof.Machine
end

