-- ==== Sys2Proof/Safety.lean ====
section
/-! DEFINITION. The terms claims are stated in: the invariants, runs of FEEDs and of edges, the step
function of spec/30_encoding.md R82, and the tagged-variant decoder of spec/10_state.md R30. -/

namespace Sys2Proof.Machine

/-! ## Invariants -/

/-- The phase is one of the ten (R22), W is at least 1 (R8), and the counters fit in W bits (R33, R36). -/
abbrev State.Legal (s : State) : Prop :=
  Phase.Legal s.phase ∧ 1 ≤ s.counterWidth ∧
    s.badBytes < 2 ^ s.counterWidth ∧ s.checksumFailures < 2 ^ s.counterWidth

/-- While `out_valid` is 1 the decoder stands in `AwaitTail` and the output registers hold the reading of
the frame just checked (R100, R130). -/
abbrev State.PulseInv (s : State) : Prop :=
  s.outValid = true →
    s.phase = Phase.awaitTail ∧ s.outPm25 = s.pendPm25 ∧ s.outPm10 = s.pendPm10

/-- R28 and R29, as far as the registers show them: `running_checksum` is the sum of the payload bytes
accepted so far, read back from the pending fields, whose high bytes are clear until they are written. -/
abbrev State.AssemblyInv (s : State) : Prop :=
  (s.phase = Phase.awaitCommand ∨ s.phase = Phase.data1 → s.runningChecksum = 0x00#8) ∧
  (s.phase = Phase.data2 →
    highByte s.pendPm25 = 0x00#8 ∧ s.runningChecksum = lowByte s.pendPm25) ∧
  (s.phase = Phase.data3 →
    s.runningChecksum = lowByte s.pendPm25 + highByte s.pendPm25) ∧
  (s.phase = Phase.data4 →
    highByte s.pendPm10 = 0x00#8 ∧
      s.runningChecksum = lowByte s.pendPm25 + highByte s.pendPm25 + lowByte s.pendPm10) ∧
  (s.phase = Phase.data5 →
    s.runningChecksum = lowByte s.pendPm25 + highByte s.pendPm25 + lowByte s.pendPm10 + highByte s.pendPm10)

/-! ## R82's step function -/

/-- The row that R82's `feed(s, b)` dispatches to, by cases on the phase. -/
def feedRow (rc : Byte) (phase : PhaseCode) (b : Byte) : Instr :=
  if phase = Phase.awaitHeader then (if b = header then .hdrAccept else .hdrReject b)
  else if phase = Phase.awaitCommand then (if b = command then .cmdAccept else .cmdReject b)
  else if phase = Phase.data1 then .data1 b
  else if phase = Phase.data2 then .data2 b
  else if phase = Phase.data3 then .data3 b
  else if phase = Phase.data4 then .data4 b
  else if phase = Phase.data5 then .data5 b
  else if phase = Phase.data6 then .data6 b
  else if phase = Phase.awaitChecksum then (if b = rc then .cksumMatch b else .cksumMismatch b)
  else if phase = Phase.awaitTail then (if b = tail then .tailOk else .tailBad b)
  else if phase.toNat < 12 then .illegalPhaseLow (phase.extractLsb' 0 1) b
  else .illegalPhaseHigh (phase.extractLsb' 0 2) b

/-! ## Runs -/

/-- The result the last FEED returned; `none` where the last operation was no FEED. -/
def State.fedResult (s : State) : Option Reading :=
  match s.result with
  | .fed r => r
  | .nothing => none
  | .count _ => none

/-- FEED after FEED (R59): the state they leave and the result of each, in order. -/
def feedAll : List Byte → State → Option (State × List (Option Reading))
  | [], s => some (s, [])
  | b :: bs, s =>
    match exec (.feed b) s with
    | .next t => (feedAll bs t).map fun p => (p.1, t.fedResult :: p.2)
    | .fault _ => none
    | .refused _ => none

/-- The reading a sink takes from the output registers after an edge (R103). -/
def State.portReading (s : State) : Option Reading :=
  if s.outValid then some { pm25 := s.outPm25, pm10 := s.outPm10 } else none

/-- `n` steps, and what the output port shows after each. -/
def runPort : Nat → State → Option (State × List (Option Reading))
  | 0, s => some (s, [])
  | n + 1, s =>
    match step s with
    | .next t => (runPort n t).map fun p => (p.1, t.portReading :: p.2)
    | .fault _ => none
    | .refused _ => none

/-- An edge without RESET: `in_valid` and `in_byte` (R98). -/
def edgeWord (e : Bool × Byte) : HostWord := .port (if e.1 then 0b01#2 else 0b00#2) e.2

/-- The bytes that a run of edges feeds (R105). -/
def fedBytes (es : List (Bool × Byte)) : List Byte := (es.filter (·.1)).map (·.2)

/-- Two states agree on the fields of R20 other than the output registers, and on W. -/
abbrev State.SameDecoder (s t : State) : Prop :=
  s.phase = t.phase ∧ s.pendPm25 = t.pendPm25 ∧ s.pendPm10 = t.pendPm10 ∧
    s.runningChecksum = t.runningChecksum ∧ s.badBytes = t.badBytes ∧
    s.checksumFailures = t.checksumFailures ∧ s.counterWidth = t.counterWidth

/-- Two states agree on what parsing reads: the phase, the pending fields and the checksum (R34). -/
abbrev State.SameParsing (s t : State) : Prop :=
  s.phase = t.phase ∧ s.pendPm25 = t.pendPm25 ∧ s.pendPm10 = t.pendPm10 ∧
    s.runningChecksum = t.runningChecksum

/-- Two states agree on what a host may observe of the counters (R24, R162). -/
abbrev State.SameCounters (s t : State) : Prop :=
  s.badBytes = t.badBytes ∧ s.checksumFailures = t.checksumFailures

/-! ## The tagged-variant decoder of R30 -/

/-- The phase with the data it carries: the bytes assembled so far and their sum. -/
inductive TaggedPhase where
  | awaitHeader
  | awaitCommand
  | data1
  | data2 (lo25 sum : Byte)
  | data3 (pm25 : Field) (sum : Byte)
  | data4 (pm25 : Field) (lo10 sum : Byte)
  | data5 (pm : Reading) (sum : Byte)
  | data6 (pm : Reading) (sum : Byte)
  | awaitChecksum (pm : Reading) (sum : Byte)
  | awaitTail
deriving DecidableEq, Repr

/-- A tagged decoder: its phase and the two observable counters. -/
structure Tagged where
  phase : TaggedPhase
  badBytes : Nat
  checksumFailures : Nat
deriving DecidableEq, Repr

/-- A session's start (R40). -/
def Tagged.start : Tagged := { phase := .awaitHeader, badBytes := 0, checksumFailures := 0 }

def Tagged.goto (p : TaggedPhase) (d : Tagged) : Tagged := { d with phase := p }

def Tagged.reject (w : Nat) (d : Tagged) : Tagged :=
  { d with phase := .awaitHeader, badBytes := (d.badBytes + 1) % 2 ^ w }

def Tagged.drop (w : Nat) (d : Tagged) : Tagged :=
  { d with phase := .awaitHeader, checksumFailures := (d.checksumFailures + 1) % 2 ^ w }

/-- The transition policy (R74) on the tagged form; the fields are the two bytes side by side (R51). -/
def Tagged.feed (w : Nat) (d : Tagged) (b : Byte) : Tagged × Option Reading :=
  match d.phase with
  | .awaitHeader =>
    if b = 0xAA#8 then (d.goto .awaitCommand, none) else (d.reject w, none)
  | .awaitCommand =>
    if b = 0xC0#8 then (d.goto .data1, none) else (d.reject w, none)
  | .data1 => (d.goto (.data2 b b), none)
  | .data2 lo25 sum => (d.goto (.data3 (b ++ lo25) (sum + b)), none)
  | .data3 pm25 sum => (d.goto (.data4 pm25 b (sum + b)), none)
  | .data4 pm25 lo10 sum => (d.goto (.data5 { pm25 := pm25, pm10 := b ++ lo10 } (sum + b)), none)
  | .data5 pm sum => (d.goto (.data6 pm (sum + b)), none)
  | .data6 pm sum => (d.goto (.awaitChecksum pm (sum + b)), none)
  | .awaitChecksum pm sum =>
    if b = sum then (d.goto .awaitTail, some pm) else (d.drop w, none)
  | .awaitTail =>
    if b = 0xAB#8 then (d.goto .awaitHeader, none) else (d.reject w, none)

/-- Feed after feed of the tagged decoder. -/
def Tagged.feedAll (w : Nat) : List Byte → Tagged → Tagged × List (Option Reading)
  | [], d => (d, [])
  | b :: bs, d =>
    let r := Tagged.feed w d b
    let rest := Tagged.feedAll w bs r.1
    (rest.1, r.2 :: rest.2)

end Sys2Proof.Machine
end

