-- ==== Sys2Proof/Certificates/Slice0/Obligations.lean ====
section
/-! DEFINITION. The statements for the provers. Each docstring names the rule of spec/ it formalises.
The block has no memory (R50), so a frame here is about registers, counters and the host's channels. -/

open Sys2Proof Sys2Proof.Machine

/-! ## The rows, one by one: where each completes and what it leaves -/

/-- R110. The value 0 that the checksum is cleared to is the spec's decision D7. -/
def Obligations.HdrAcceptStartsAFrame : Prop :=
  ∀ s : State, s.phase = Phase.awaitHeader →
    ∃ t, exec .hdrAccept s = .next t ∧ t.phase = Phase.awaitCommand ∧ t.runningChecksum = 0x00#8 ∧
      t.pendPm25 = s.pendPm25 ∧ t.pendPm10 = s.pendPm10 ∧ t.badBytes = s.badBytes ∧
      t.checksumFailures = s.checksumFailures ∧ t.result = .fed none

/-- R111. The wrap of the count is the spec's decision D5 (R33). -/
def Obligations.HdrRejectCountsAndStays : Prop :=
  ∀ (s : State) (b : Byte), s.phase = Phase.awaitHeader → b ≠ 0xAA#8 →
    ∃ t, exec (.hdrReject b) s = .next t ∧ t.phase = Phase.awaitHeader ∧
      t.badBytes = (s.badBytes + 1) % 2 ^ s.counterWidth ∧
      t.checksumFailures = s.checksumFailures ∧ t.runningChecksum = s.runningChecksum ∧
      t.pendPm25 = s.pendPm25 ∧ t.pendPm10 = s.pendPm10 ∧ t.result = .fed none

/-- R112: the command byte moves on to `Data1` and touches nothing else of the decoder, and no other
instruction enters `Data1` (a FEED does so only where it selects this row). Likewise (R110)
`AwaitCommand` is entered only at a header byte, and only operations that feed no byte stay in it. -/
def Obligations.CmdAcceptEntersData1 : Prop :=
  (∀ s : State, s.phase = Phase.awaitCommand →
    ∃ t, exec .cmdAccept s = .next t ∧ t.phase = Phase.data1 ∧
      t.runningChecksum = s.runningChecksum ∧ t.pendPm25 = s.pendPm25 ∧ t.pendPm10 = s.pendPm10 ∧
      t.badBytes = s.badBytes ∧ t.checksumFailures = s.checksumFailures ∧ t.result = .fed none) ∧
  (∀ (i : Instr) (s t : State), exec i s = .next t → s.phase ≠ Phase.data1 → t.phase = Phase.data1 →
    s.phase = Phase.awaitCommand ∧ (i = .cmdAccept ∨ i = .feed 0xC0#8)) ∧
  (∀ (i : Instr) (s t : State), exec i s = .next t → s.phase ≠ Phase.awaitCommand →
    t.phase = Phase.awaitCommand →
    s.phase = Phase.awaitHeader ∧ (i = .hdrAccept ∨ i = .feed 0xAA#8)) ∧
  (∀ (i : Instr) (s t : State), exec i s = .next t → s.phase = Phase.awaitCommand →
    t.phase = Phase.awaitCommand → i = .idle ∨ ∃ k, i = .query k)

/-- R113: the byte is consumed, not examined again, even when it is `0xAA`. The wrap is D5. -/
def Obligations.CmdRejectCountsAndReverts : Prop :=
  ∀ (s : State) (b : Byte), s.phase = Phase.awaitCommand → b ≠ 0xC0#8 →
    ∃ t, exec (.cmdReject b) s = .next t ∧ t.phase = Phase.awaitHeader ∧
      t.badBytes = (s.badBytes + 1) % 2 ^ s.counterWidth ∧
      t.checksumFailures = s.checksumFailures ∧ t.runningChecksum = s.runningChecksum ∧
      t.pendPm25 = s.pendPm25 ∧ t.pendPm10 = s.pendPm10 ∧ t.result = .fed none

/-- R120. The layout of the pending field is the spec's decision D8. -/
def Obligations.Data1StoresLowByteAndStartsSum : Prop :=
  ∀ (s : State) (b : Byte), s.phase = Phase.data1 →
    ∃ t, exec (.data1 b) s = .next t ∧ t.phase = Phase.data2 ∧ t.pendPm25 = 0x00#8 ++ b ∧
      t.runningChecksum = b ∧ t.pendPm10 = s.pendPm10 ∧ t.badBytes = s.badBytes ∧
      t.checksumFailures = s.checksumFailures ∧ t.result = .fed none

/-- R121. The layout of the pending field is the spec's decision D8. -/
def Obligations.Data2StoresHighByte : Prop :=
  ∀ (s : State) (b : Byte), s.phase = Phase.data2 →
    ∃ t, exec (.data2 b) s = .next t ∧ t.phase = Phase.data3 ∧
      t.pendPm25 = b ++ s.pendPm25.extractLsb' 0 8 ∧ t.runningChecksum = s.runningChecksum + b ∧
      t.pendPm10 = s.pendPm10 ∧ t.badBytes = s.badBytes ∧
      t.checksumFailures = s.checksumFailures ∧ t.result = .fed none

/-- R122. The layout of the pending field is the spec's decision D8. -/
def Obligations.Data3StoresLowByte : Prop :=
  ∀ (s : State) (b : Byte), s.phase = Phase.data3 →
    ∃ t, exec (.data3 b) s = .next t ∧ t.phase = Phase.data4 ∧ t.pendPm10 = 0x00#8 ++ b ∧
      t.runningChecksum = s.runningChecksum + b ∧ t.pendPm25 = s.pendPm25 ∧
      t.badBytes = s.badBytes ∧ t.checksumFailures = s.checksumFailures ∧ t.result = .fed none

/-- R123. The layout of the pending field is the spec's decision D8. -/
def Obligations.Data4StoresHighByte : Prop :=
  ∀ (s : State) (b : Byte), s.phase = Phase.data4 →
    ∃ t, exec (.data4 b) s = .next t ∧ t.phase = Phase.data5 ∧
      t.pendPm10 = b ++ s.pendPm10.extractLsb' 0 8 ∧ t.runningChecksum = s.runningChecksum + b ∧
      t.pendPm25 = s.pendPm25 ∧ t.badBytes = s.badBytes ∧
      t.checksumFailures = s.checksumFailures ∧ t.result = .fed none

/-- R124: the reserved/ID low byte is summed and not stored. -/
def Obligations.Data5OnlySums : Prop :=
  ∀ (s : State) (b : Byte), s.phase = Phase.data5 →
    ∃ t, exec (.data5 b) s = .next t ∧ t.phase = Phase.data6 ∧
      t.runningChecksum = s.runningChecksum + b ∧ t.pendPm25 = s.pendPm25 ∧ t.pendPm10 = s.pendPm10 ∧
      t.badBytes = s.badBytes ∧ t.checksumFailures = s.checksumFailures ∧ t.result = .fed none

/-- R125: the reserved/ID high byte is summed and not stored. -/
def Obligations.Data6OnlySums : Prop :=
  ∀ (s : State) (b : Byte), s.phase = Phase.data6 →
    ∃ t, exec (.data6 b) s = .next t ∧ t.phase = Phase.awaitChecksum ∧
      t.runningChecksum = s.runningChecksum + b ∧ t.pendPm25 = s.pendPm25 ∧ t.pendPm10 = s.pendPm10 ∧
      t.badBytes = s.badBytes ∧ t.checksumFailures = s.checksumFailures ∧ t.result = .fed none

/-- R130, with the output registers of R98 (the spec's decision D11): the reading goes out now, and
nothing is cleared. -/
def Obligations.CksumMatchEmits : Prop :=
  ∀ (s : State) (b : Byte), s.phase = Phase.awaitChecksum → b = s.runningChecksum →
    ∃ t, exec (.cksumMatch b) s = .next t ∧ t.phase = Phase.awaitTail ∧
      t.result = .fed (some { pm25 := s.pendPm25, pm10 := s.pendPm10 }) ∧
      t.outValid = true ∧ t.outPm25 = s.pendPm25 ∧ t.outPm10 = s.pendPm10 ∧
      t.pendPm25 = s.pendPm25 ∧ t.pendPm10 = s.pendPm10 ∧ t.runningChecksum = s.runningChecksum ∧
      t.badBytes = s.badBytes ∧ t.checksumFailures = s.checksumFailures

/-- R131: the frame is dropped, with no partial reading. The wrap is D5. -/
def Obligations.CksumMismatchCountsAndReverts : Prop :=
  ∀ (s : State) (b : Byte), s.phase = Phase.awaitChecksum → b ≠ s.runningChecksum →
    ∃ t, exec (.cksumMismatch b) s = .next t ∧ t.phase = Phase.awaitHeader ∧
      t.checksumFailures = (s.checksumFailures + 1) % 2 ^ s.counterWidth ∧
      t.badBytes = s.badBytes ∧ t.runningChecksum = s.runningChecksum ∧
      t.pendPm25 = s.pendPm25 ∧ t.pendPm10 = s.pendPm10 ∧ t.result = .fed none

/-- R132: the expected tail ends the frame and changes nothing else of the decoder; and `AwaitTail`,
where it is reached, is entered only by a checksum match. -/
def Obligations.TailOkEndsTheFrame : Prop :=
  (∀ s : State, s.phase = Phase.awaitTail →
    ∃ t, exec .tailOk s = .next t ∧ t.phase = Phase.awaitHeader ∧
      t.runningChecksum = s.runningChecksum ∧ t.pendPm25 = s.pendPm25 ∧ t.pendPm10 = s.pendPm10 ∧
      t.badBytes = s.badBytes ∧ t.checksumFailures = s.checksumFailures ∧ t.result = .fed none) ∧
  (∀ (i : Instr) (s t : State), exec i s = .next t → s.phase ≠ Phase.awaitTail →
    t.phase = Phase.awaitTail →
    s.phase = Phase.awaitChecksum ∧
      (i = .cksumMatch s.runningChecksum ∨ i = .feed s.runningChecksum))

/-- R133: a wrong tail is counted and does not re-emit. The wrap is D5. -/
def Obligations.TailBadCountsAndReverts : Prop :=
  ∀ (s : State) (b : Byte), s.phase = Phase.awaitTail → b ≠ 0xAB#8 →
    ∃ t, exec (.tailBad b) s = .next t ∧ t.phase = Phase.awaitHeader ∧
      t.badBytes = (s.badBytes + 1) % 2 ^ s.counterWidth ∧
      t.checksumFailures = s.checksumFailures ∧ t.runningChecksum = s.runningChecksum ∧
      t.pendPm25 = s.pendPm25 ∧ t.pendPm10 = s.pendPm10 ∧ t.result = .fed none

/-- R134, R164: the phase codes no run produces. The fault is the spec's decision D3. -/
def Obligations.IllegalPhaseRaisesItsFault : Prop :=
  (∀ (s : State) (p : BitVec 1) (b : Byte), s.phase = 0b101#3 ++ p →
    exec (.illegalPhaseLow p b) s = .fault (.illegalPhase s.phase)) ∧
  (∀ (s : State) (p : BitVec 2) (b : Byte), s.phase = 0b11#2 ++ p →
    exec (.illegalPhaseHigh p b) s = .fault (.illegalPhase s.phase)) ∧
  (∀ (s : State) (b : Byte), ¬ Phase.Legal s.phase →
    exec (.feed b) s = .fault (.illegalPhase s.phase))

/-- R74: a selector row has no effect in a state whose phase and byte do not select it; the model refuses
it by name (the model's choice, log entry 4). -/
def Obligations.UnselectedRowHasNoEffect : Prop :=
  ∀ (s t : State) (i : Instr), exec i s = .next t → i ≠ .reset → i ≠ .idle →
    (∀ b, i ≠ .feed b) → (∀ k, i ≠ .query k) → ∃ b, feedRow s.runningChecksum s.phase b = i

/-! ## The host's operations -/

/-- R95 with the values of R40 (the spec's decisions D6, D9, D11): every register, whatever it held. The
model's own fields (log entry 10): W and what the host has still to present stay. -/
def Obligations.ResetSetsEveryRegister : Prop :=
  ∀ s : State, ∃ t, exec .reset s = .next t ∧
    t.phase = Phase.awaitHeader ∧ t.badBytes = 0 ∧ t.checksumFailures = 0 ∧
    t.pendPm25 = 0x0000#16 ∧ t.pendPm10 = 0x0000#16 ∧ t.runningChecksum = 0x00#8 ∧
    t.outValid = false ∧ t.outPm25 = 0x0000#16 ∧ t.outPm10 = 0x0000#16 ∧
    t.counterWidth = s.counterWidth ∧ t.input = s.input ∧ t.result = .nothing

/-- R99 (the wrapper, decisions D11, D21): no field other than `out_valid` changes. -/
def Obligations.IdleChangesOnlyOutValid : Prop :=
  ∀ s : State, exec .idle s = .next { s with outValid := false }

/-- R93, R56 (decisions D12, D13): the count comes back, and no register is written. -/
def Obligations.QueryReturnsTheCount : Prop :=
  ∀ s : State,
    (exec (.query 0#1) s = .next { s with result := .count s.badBytes }) ∧
    (exec (.query 1#1) s = .next { s with result := .count s.checksumFailures })

/-- R92: FEED never fails, in every phase of R22 and for every byte; what it answers is what the row that
the decode table selects answers. A malformed byte (one whose row rejects it) is absorbed: it counts in
exactly one counter, and the decoder is back at the header search; any other byte counts in none and
advances. The wrap of a count is the spec's decision D5. -/
def Obligations.FeedNeverFails : Prop :=
  ∀ (s : State) (b : Byte), Phase.Legal s.phase →
    ∃ row t, decodeSel s.runningChecksum (selWord s.phase b) = some row ∧
      exec row s = .next t ∧ exec (.feed b) s = .next t ∧
      (row ∈ [Instr.hdrReject b, .cmdReject b, .tailBad b] → t.phase = Phase.awaitHeader ∧
        t.badBytes = (s.badBytes + 1) % 2 ^ s.counterWidth ∧
        t.checksumFailures = s.checksumFailures) ∧
      (row = .cksumMismatch b → t.phase = Phase.awaitHeader ∧ t.badBytes = s.badBytes ∧
        t.checksumFailures = (s.checksumFailures + 1) % 2 ^ s.counterWidth) ∧
      (row ∉ [Instr.hdrReject b, .cmdReject b, .tailBad b, .cksumMismatch b] →
        t.phase = Phase.next s.phase ∧ t.SameCounters s)

/-- R82: FEED has the effect of the row that the case on the phase names, in every state. -/
def Obligations.FeedRunsTheRowOfItsPhase : Prop :=
  ∀ (s : State) (b : Byte), exec (.feed b) s = exec (feedRow s.runningChecksum s.phase b) s

/-- R98: RESET wins over a FEED at the same edge, whose byte is discarded (the spec's decision D9). -/
def Obligations.ResetWinsAtItsEdge : Prop :=
  ∀ (s : State) (v : BitVec 1) (b : Byte) (rest : List HostWord),
    s.input = .port (1#1 ++ v) b :: rest → step s = .next ({ s with input := rest } : State).takeReset

/-! ## Fetch, decode, encode -/

/-- A step executes the operation that its oldest host word decodes to, the word taken; with nothing
presented the edge is idle (R58, R99; the queue is the model's own, log entry 2). -/
def Obligations.StepRunsTheDecodedOperation : Prop :=
  (∀ (s : State) (w : HostWord) (rest : List HostWord) (i : Instr),
    s.input = w :: rest → decode w = .ok i → step s = exec i { s with input := rest }) ∧
  (∀ s : State, s.input = [] → step s = exec .idle s)

/-- The word of an opcode table row, placed where the machine takes its next operation, runs as the
instruction the decoder reads from it (the placing is the model's own, log entry 5). -/
def Obligations.PlacedTableWordRuns : Prop :=
  ∀ (s : State) (nbits w : Nat) (i : Instr), decodeTableWord nbits w = some i →
    ∃ u, step (s.withFetchWord nbits w) = exec i u ∧ u.input = s.input ∧ u.SameCounters s ∧
      u.pendPm25 = s.pendPm25 ∧ u.pendPm10 = s.pendPm10 ∧ u.counterWidth = s.counterWidth

/-- R93, R94 (the spec's decision D12): an index that names no register and a request for private state
are refused, whatever the state. -/
def Obligations.NoOperationIsRefused : Prop :=
  (∀ (s : State) (n : Nat) (rest : List HostWord), s.input = .query n :: rest → 2 ≤ n →
    step s = .refused (.noOperation (.queryIndex n))) ∧
  (∀ (s : State) (r : PrivateRequest) (rest : List HostWord), s.input = .request r :: rest →
    step s = .refused (.noOperation (.privateState r)))

/-- R75: for every phase code 0..9 and every byte the first matching row is one of rows 1 to 14, and it
is no ILLEGAL_PHASE row; codes 10..15 match rows 15 and 16 only. -/
def Obligations.DecodeTableIsTotalAndFirstMatch : Prop :=
  ∀ (rc : Byte) (p : PhaseCode) (b : Byte),
    ∃ k, selRows.findIdx? (·.hits rc (selWord p b)) = some k ∧
      (k < 14 ↔ Phase.Legal p) ∧
      (¬ Phase.Legal p → ∀ (j : Nat) (r : SelRow), selRows[j]? = some r →
        r.hits rc (selWord p b) = true → 14 ≤ j)

/-- R74, R83: decoding an encoded well-formed instruction gives it back, for every operand, where the
checksum rows' condition holds. -/
def Obligations.EncodedInstructionsDecodeBack : Prop :=
  ∀ (i : Instr) (rc : Byte), i.wellFormed = true → i.conditionHolds rc = true →
    decodeEncoding rc (encode i) = some i

/-- R73, R74: every selector word has a meaning, and encoding what it decodes to gives the word back. -/
def Obligations.DecodedSelectorsEncodeBack : Prop :=
  ∀ (rc : Byte) (w : Selector), ∃ i, decodeSel rc w = some i ∧ encode i = .sel12 w ∧
    i.wellFormed = true ∧ i.conditionHolds rc = true

/-- R74: a few words written out from the table. -/
def Obligations.TableWordsDecode : Prop :=
  decodeSel 0x00#8 0x0AA#12 = some .hdrAccept ∧
  decodeSel 0x00#8 0x000#12 = some (.hdrReject 0x00#8) ∧
  decodeSel 0x00#8 0x1C0#12 = some .cmdAccept ∧
  decodeSel 0x00#8 0x1AA#12 = some (.cmdReject 0xAA#8) ∧
  decodeSel 0x00#8 0x27D#12 = some (.data1 0x7D#8) ∧
  decodeSel 0xE2#8 0x8E2#12 = some (.cksumMatch 0xE2#8) ∧
  decodeSel 0xE2#8 0x8E3#12 = some (.cksumMismatch 0xE3#8) ∧
  decodeSel 0x00#8 0x9AB#12 = some .tailOk ∧
  decodeSel 0x00#8 0xC00#12 = some (.illegalPhaseHigh 0b00#2 0x00#8) ∧
  decodePort 0b11#2 0x00#8 = some .reset ∧
  decodePort 0b01#2 0xAA#8 = some (.feed 0xAA#8) ∧
  decodePort 0b00#2 0x00#8 = some .idle ∧
  decodeQuery 1 = some (.query 1#1)

/-! ## Frames -/

/-- R126: the six payload rows never change a counter, never emit, and advance the phase by one; DATA1
and DATA2 keep pm10, DATA3 and DATA4 keep pm2.5, DATA5 and DATA6 keep both. The output registers keep
their values, W and the host's words stay. -/
def Obligations.PayloadRowsFrame : Prop :=
  ∀ (i : Instr) (b : Byte) (s t : State),
    i ∈ [Instr.data1 b, .data2 b, .data3 b, .data4 b, .data5 b, .data6 b] → exec i s = .next t →
      t.badBytes = s.badBytes ∧ t.checksumFailures = s.checksumFailures ∧ t.result = .fed none ∧
      t.phase = s.phase + 1#4 ∧
      (i ∈ [Instr.data1 b, .data2 b, .data5 b, .data6 b] → t.pendPm10 = s.pendPm10) ∧
      (i ∈ [Instr.data3 b, .data4 b, .data5 b, .data6 b] → t.pendPm25 = s.pendPm25) ∧
      t.outValid = false ∧ t.outPm25 = s.outPm25 ∧ t.outPm10 = s.outPm10 ∧
      t.counterWidth = s.counterWidth ∧ t.input = s.input

/-- The header, command, checksum and tail rows leave the pending fields, the output registers but for an
emission, W and the host's words; the checksum is left by all but HDR_ACCEPT; each counter is left by
every row but those R31 and R32 name. -/
def Obligations.FramingRowsFrame : Prop :=
  ∀ (i : Instr) (b : Byte) (s t : State),
    i ∈ [Instr.hdrAccept, .hdrReject b, .cmdAccept, .cmdReject b, .cksumMatch b, .cksumMismatch b,
      .tailOk, .tailBad b] → exec i s = .next t →
      t.pendPm25 = s.pendPm25 ∧ t.pendPm10 = s.pendPm10 ∧
      (i ≠ .hdrAccept → t.runningChecksum = s.runningChecksum) ∧
      (i ∉ [Instr.hdrReject b, .cmdReject b, .tailBad b] → t.badBytes = s.badBytes) ∧
      (i ≠ .cksumMismatch b → t.checksumFailures = s.checksumFailures) ∧
      (i ≠ .cksumMatch b → t.outValid = false ∧ t.outPm25 = s.outPm25 ∧ t.outPm10 = s.outPm10) ∧
      t.counterWidth = s.counterWidth ∧ t.input = s.input

/-- A FEED of any byte in any state leaves W, the host's words, and each register of R20 that the selected
row does not write: the output registers but at an emission (R100, the spec's decision D11), the pending
fields, the checksum, the two counters, and the phase in a rejecting `AwaitHeader`. -/
def Obligations.FeedFrame : Prop :=
  ∀ (b : Byte) (s t : State), exec (.feed b) s = .next t →
    t.counterWidth = s.counterWidth ∧ t.input = s.input ∧
    (t.result = .fed none → t.outValid = false ∧ t.outPm25 = s.outPm25 ∧ t.outPm10 = s.outPm10) ∧
    (s.phase ≠ Phase.data1 → s.phase ≠ Phase.data2 → t.pendPm25 = s.pendPm25) ∧
    (s.phase ≠ Phase.data3 → s.phase ≠ Phase.data4 → t.pendPm10 = s.pendPm10) ∧
    (s.phase = Phase.awaitHeader ∧ b ≠ 0xAA#8 ∨ s.phase = Phase.awaitCommand ∨
      s.phase = Phase.awaitChecksum ∨ s.phase = Phase.awaitTail → t.runningChecksum = s.runningChecksum) ∧
    (¬ (s.phase = Phase.awaitHeader ∧ b ≠ 0xAA#8) → ¬ (s.phase = Phase.awaitCommand ∧ b ≠ 0xC0#8) →
      ¬ (s.phase = Phase.awaitTail ∧ b ≠ 0xAB#8) → t.badBytes = s.badBytes) ∧
    (¬ (s.phase = Phase.awaitChecksum ∧ b ≠ s.runningChecksum) →
      t.checksumFailures = s.checksumFailures) ∧
    (s.phase = Phase.awaitHeader → b ≠ 0xAA#8 → t.phase = s.phase)

/-! ## Phase, counters, emission over all states -/

/-- R23: every FEED advances the phase, reverts it to `AwaitHeader`, or, in HDR_REJECT alone, leaves it;
RESET is the only other writer. -/
def Obligations.PhaseIsWrittenInThreeWays : Prop :=
  (∀ (s t : State) (b : Byte), exec (.feed b) s = .next t →
    ∃ row, decodeSel s.runningChecksum (selWord s.phase b) = some row ∧
      (row = .hdrReject b → t.phase = s.phase) ∧
      (row = .cmdReject b ∨ row = .cksumMismatch b ∨ row = .tailBad b → t.phase = Phase.awaitHeader) ∧
      (row ∉ [Instr.hdrReject b, .cmdReject b, .cksumMismatch b, .tailBad b] →
        t.phase = Phase.next s.phase ∧ t.phase ≠ s.phase)) ∧
  (∀ s t : State, exec .reset s = .next t → t.phase = Phase.awaitHeader) ∧
  (∀ s t : State, exec .idle s = .next t → t.phase = s.phase) ∧
  (∀ (k : BitVec 1) (s t : State), exec (.query k) s = .next t → t.phase = s.phase)

/-- R31, R32, R33, R35, R154: in one step each counter keeps its value, is cleared by RESET, or counts one
up modulo 2^W (the spec's decision D5) in a FEED of a row the rules name, and never both count. -/
def Obligations.CountersCountOnlyTheirErrors : Prop :=
  ∀ (s t : State) (i : Instr), exec i s = .next t → i ≠ .reset →
    let row := match i with
      | .feed b => feedRow s.runningChecksum s.phase b
      | j => j
    (t.badBytes = if rowEvent row = some .badHeader ∨ rowEvent row = some .badCommand ∨
        rowEvent row = some .badTail then (s.badBytes + 1) % 2 ^ s.counterWidth else s.badBytes) ∧
    (t.checksumFailures = if rowEvent row = some .checksum then
        (s.checksumFailures + 1) % 2 ^ s.counterWidth else s.checksumFailures)

/-- R34: two states that agree on the phase, the pending fields and the checksum, whatever their counters
and output registers, take the same row and agree on all these again. -/
def Obligations.CountersDoNotAffectParsing : Prop :=
  ∀ (s s' : State) (b : Byte), s.SameParsing s' →
    (∃ t t', exec (.feed b) s = .next t ∧ exec (.feed b) s' = .next t' ∧ t.SameParsing t' ∧
      t.result = t'.result) ∨
    (∃ f, exec (.feed b) s = .fault f ∧ exec (.feed b) s' = .fault f)

/-- R91: FEED returns a Reading exactly when its row is CKSUM_MATCH, and `None` for every other row. -/
def Obligations.ReadingExactlyAtChecksumMatch : Prop :=
  ∀ (s t : State) (b : Byte), exec (.feed b) s = .next t →
    ((∃ r, t.result = .fed (some r)) ↔
      decodeSel s.runningChecksum (selWord s.phase b) = some (.cksumMatch b)) ∧
    (decodeSel s.runningChecksum (selWord s.phase b) ≠ some (.cksumMatch b) → t.result = .fed none)

/-- R51, R72: from `Data1`, any six payload bytes and their sum emit the two little-endian fields. -/
def Obligations.PayloadIsLittleEndianAndSummed : Prop :=
  ∀ (s : State) (b2 b3 b4 b5 b6 b7 c : Byte), s.phase = Phase.data1 →
    ∃ t rs, feedAll [b2, b3, b4, b5, b6, b7, c] s = some (t, rs) ∧
      (c.toNat = (b2.toNat + b3.toNat + b4.toNat + b5.toNat + b6.toNat + b7.toNat) % 256 →
        rs = [none, none, none, none, none, none,
          some { pm25 := b2.setWidth 16 ||| (b3.setWidth 16 <<< 8)
                 pm10 := b4.setWidth 16 ||| (b5.setWidth 16 <<< 8) }]) ∧
      (c.toNat ≠ (b2.toNat + b3.toNat + b4.toNat + b5.toNat + b6.toNat + b7.toNat) % 256 →
        rs = [none, none, none, none, none, none, none])

/-- R127: the checksum after DATA6 does not depend on the order of the payload bytes. -/
def Obligations.ChecksumIgnoresPayloadOrder : Prop :=
  ∀ (s t t' : State) (bs bs' : List Byte) (rs rs' : List (Option Reading)),
    s.phase = Phase.data1 → bs.length = 6 → bs.Perm bs' →
    feedAll bs s = some (t, rs) → feedAll bs' s = some (t', rs') →
    t.runningChecksum = t'.runningChecksum

/-! ## Invariants of every step -/

/-- R22, R33: the phase stays one of the ten and the counters stay in their W bits, whatever the host
presents. -/
def Obligations.StepKeepsLegalStates : Prop :=
  ∀ s t : State, s.Legal → step s = .next t → t.Legal

/-- R28, R29: the checksum is the sum of the payload bytes so far, kept by every step. The zero before
`Data1` is the spec's decision D7. -/
def Obligations.StepKeepsChecksumAssembly : Prop :=
  ∀ s t : State, s.AssemblyInv → step s = .next t → t.AssemblyInv

/-- R100: while `out_valid` is 1 the decoder awaits the tail and the output registers hold the reading
just checked (the spec's decision D11). -/
def Obligations.StepKeepsOutputPulse : Prop :=
  ∀ s t : State, s.PulseInv → step s = .next t → t.PulseInv

/-- R40: the three invariants hold after reset, at every width W >= 1, and so at `State.reset`. -/
def Obligations.ResetMeetsTheInvariants : Prop :=
  (∀ w : Nat, 1 ≤ w → (State.resetAt w).Legal ∧ (State.resetAt w).AssemblyInv ∧ (State.resetAt w).PulseInv) ∧
  State.reset.Legal ∧ State.reset.AssemblyInv ∧ State.reset.PulseInv

/-- R150, R164: from a legal state no step faults, and the only refusals are the host's own: a word that
is no operation. -/
def Obligations.LegalStatesNeverFault : Prop :=
  ∀ s : State, Phase.Legal s.phase →
    (∃ t, step s = .next t) ∨ (∃ w rest e, s.input = w :: rest ∧ decode w = .error e ∧
      step s = .refused (.noOperation e))

/-- R164: with a phase code of 10 to 15 the oldest host word, a FEED, raises the fault, and no later word
clears it, a RESET edge among them (how the model keeps the mark: log entry 8). Idle edges and QUERYs
before that FEED do not avert it. -/
def Obligations.FaultEndsTheRun : Prop :=
  (∀ (s : State) (b : Byte) (rest : List HostWord) (m : Nat), 10 ≤ s.phase.toNat →
    s.input = feedWord b :: rest → core.run (m + 1) s = .fault (.illegalPhase s.phase)) ∧
  (∀ (s : State) (pre : List HostWord) (b : Byte) (rest : List HostWord) (m : Nat),
    10 ≤ s.phase.toNat → s.input = pre ++ feedWord b :: rest →
    (∀ w ∈ pre, (∃ c, w = .port 0b00#2 c) ∨ w = .query 0 ∨ w = .query 1) →
    core.run (pre.length + (m + 1)) s = .fault (.illegalPhase s.phase))

/-- R100: two edges that emit are never adjacent, so every pulse of `out_valid` lasts one edge (the spec's
decision D11). -/
def Obligations.OutValidLastsOneEdge : Prop :=
  ∀ (s t : State) (pins : BitVec 2) (b : Byte) (rest : List HostWord), s.PulseInv →
    s.outValid = true → s.input = .port pins b :: rest → step s = .next t → t.outValid = false

/-- The open parameter W is fixed for a machine (R8), and a step takes exactly the oldest word the host
presents (R58): the model's own fields, log entries 1 and 2. -/
def Obligations.StepKeepsWidthAndTakesOneWord : Prop :=
  ∀ s t : State, step s = .next t → t.counterWidth = s.counterWidth ∧ t.input = s.input.tail

/-! ## Whole frames and resynchronization -/

/-- R136: a frame `AA C0 b2..b7 c t` fed from `AwaitHeader` ends in exactly one of its three ways, at
every counter value and width. The wrap is D5. -/
def Obligations.FrameEndsInThreeWays : Prop :=
  ∀ (s : State) (b2 b3 b4 b5 b6 b7 c t : Byte), s.phase = Phase.awaitHeader →
    ∃ u rs, feedAll [0xAA#8, 0xC0#8, b2, b3, b4, b5, b6, b7, c, t] s = some (u, rs) ∧
      (c = frameChecksum b2 b3 b4 b5 b6 b7 →
        rs = [none, none, none, none, none, none, none, none,
          some { pm25 := b3 ++ b2, pm10 := b5 ++ b4 }, none] ∧
        u.phase = Phase.awaitHeader ∧ u.checksumFailures = s.checksumFailures ∧
        u.badBytes = if t = 0xAB#8 then s.badBytes else (s.badBytes + 1) % 2 ^ s.counterWidth) ∧
      (c ≠ frameChecksum b2 b3 b4 b5 b6 b7 →
        rs = List.replicate 10 none ∧
        u.checksumFailures = (s.checksumFailures + 1) % 2 ^ s.counterWidth ∧
        u.badBytes = (if t = 0xAA#8 then s.badBytes else (s.badBytes + 1) % 2 ^ s.counterWidth) ∧
        u.phase = if t = 0xAA#8 then Phase.awaitCommand else Phase.awaitHeader)

/-- R185 with R184: after nine bytes none of which is `0xAA`, from any legal phase, a valid frame always
decodes, to exactly one Reading at its ninth byte, and changes no counter. -/
def Obligations.ValidFrameAfterCleanNoiseDecodes : Prop :=
  ∀ (s : State) (noise : List Byte) (p25 p10 id : Field), Phase.Legal s.phase →
    noise.length = 9 → (∀ b ∈ noise, b ≠ 0xAA#8) →
    ∃ m u rs, feedAll noise s = some (m, rs) ∧ m.phase = Phase.awaitHeader ∧
      feedAll (frameBytes p25 p10 id) m =
        some (u, List.replicate 8 none ++ [some { pm25 := p25, pm10 := p10 }, none]) ∧
      u.phase = Phase.awaitHeader ∧ u.SameCounters m

/-- R183: from the phase with code k, 1 <= k <= 9, some prefix of at most 10 - k bytes, whatever they are,
ends in `AwaitHeader`. -/
def Obligations.HeaderSearchReturnsInTime : Prop :=
  ∀ (s : State) (bs : List Byte), 1 ≤ s.phase.toNat → s.phase.toNat ≤ 9 →
    bs.length = 10 - s.phase.toNat →
    ∃ n t rs, n ≤ bs.length ∧ feedAll (bs.take n) s = some (t, rs) ∧ t.phase = Phase.awaitHeader

/-- R184: nine consecutive bytes none of which is `0xAA` end in `AwaitHeader`, from any legal phase, and
eight do not suffice. -/
def Obligations.NineCleanBytesResynchronize : Prop :=
  (∀ (s : State) (bs : List Byte), Phase.Legal s.phase → bs.length = 9 → (∀ b ∈ bs, b ≠ 0xAA#8) →
    ∃ t rs, feedAll bs s = some (t, rs) ∧ t.phase = Phase.awaitHeader) ∧
  (∀ s : State, s.phase = Phase.awaitCommand →
    ∃ t rs, feedAll [0xC0#8, 0x01#8, 0x02#8, 0x03#8, 0x04#8, 0x05#8, 0x06#8, 0x15#8] s = some (t, rs) ∧
      t.phase = Phase.awaitTail)

/-- R111: n bytes none of which is `0xAA`, fed while the header is searched for, add n to `bad_bytes`
modulo 2^W (decision D5) and never emit. -/
def Obligations.NoiseIsCountedByteByByte : Prop :=
  ∀ (s : State) (bs : List Byte), s.phase = Phase.awaitHeader → s.badBytes < 2 ^ s.counterWidth →
    (∀ b ∈ bs, b ≠ 0xAA#8) →
    ∃ t, feedAll bs s = some (t, List.replicate bs.length none) ∧ t.phase = Phase.awaitHeader ∧
      t.badBytes = (s.badBytes + bs.length) % 2 ^ s.counterWidth ∧
      t.checksumFailures = s.checksumFailures

/-- R186 (a) and (b): a doubled header loses the second `AA`, and a byte in the place of a missing tail is
consumed, even when it is the next frame's `AA`. The wrap is D5. -/
def Obligations.ConsumedHeaderIsNotReexamined : Prop :=
  (∀ s : State, s.phase = Phase.awaitHeader →
    ∃ t, feedAll [0xAA#8, 0xAA#8, 0xC0#8] s = some (t, [none, none, none]) ∧
      t.phase = Phase.awaitHeader ∧
      t.badBytes = ((s.badBytes + 1) % 2 ^ s.counterWidth + 1) % 2 ^ s.counterWidth) ∧
  (∀ s : State, s.phase = Phase.awaitTail →
    ∃ t, feedAll [0xAA#8, 0xC0#8] s = some (t, [none, none]) ∧
      t.phase = Phase.awaitHeader ∧
      t.badBytes = ((s.badBytes + 1) % 2 ^ s.counterWidth + 1) % 2 ^ s.counterWidth)

/-- R186 (c): a spurious `AA C0` just accepted swallows the `AA` of a frame that starts 1 to 7 bytes after
the `C0`, and 8 bytes after it when the spurious frame's checksum matched. -/
def Obligations.FalseStartSwallowsTheHeader : Prop :=
  (∀ (s : State) (pre : List Byte), s.phase = Phase.data1 → pre.length ≤ 6 →
    ∃ t rs, feedAll (pre ++ [0xAA#8]) s = some (t, rs) ∧ t.phase ≠ Phase.awaitCommand) ∧
  (∀ (s m : State) (pre : List Byte) (rs : List (Option Reading)), s.phase = Phase.data1 →
    pre.length = 7 → feedAll pre s = some (m, rs) → m.phase = Phase.awaitTail →
    ∃ t, feedAll (pre ++ [0xAA#8]) s = some (t, rs ++ [none]) ∧ t.phase = Phase.awaitHeader)

/-- R103: after an emission no reading comes out for nine more bytes, whatever they are. -/
def Obligations.EmissionsAreTenBytesApart : Prop :=
  ∀ (s t : State) (b : Byte) (r : Reading) (bs : List Byte), exec (.feed b) s = .next t →
    t.result = .fed (some r) → bs.length ≤ 9 →
    ∃ u, feedAll bs t = some (u, List.replicate bs.length none)

/-! ## Whole machines compared -/

/-- R105: a run of edges without RESET, with any idle edges among them, leaves the decoder where the FEEDs
of its valid bytes leave it, and what the output port shows, in order, is what those FEEDs returned (the
wrapper is the spec's own choice, decision D1). -/
def Obligations.PortRunRefinesFeeds : Prop :=
  ∀ (s : State) (es : List (Bool × Byte)), Phase.Legal s.phase → s.input = es.map edgeWord →
    ∃ t shown u fed, runPort es.length s = some (t, shown) ∧ feedAll (fedBytes es) s = some (u, fed) ∧
      t.SameDecoder u ∧ shown.filterMap id = fed.filterMap id

/-- R30: the decoder that carries its pending bytes and sum inside the phase is equivalent in every
observable: from the start of a session, at any width, the same bytes give the same results and the same
counters. -/
def Obligations.TaggedVariantIsEquivalent : Prop :=
  ∀ (w : Nat) (bs : List Byte), ∃ t rs, feedAll bs (State.resetAt w) = some (t, rs) ∧
    (Tagged.feedAll w bs Tagged.start).2 = rs ∧
    (Tagged.feedAll w bs Tagged.start).1.badBytes = t.badBytes ∧
    (Tagged.feedAll w bs Tagged.start).1.checksumFailures = t.checksumFailures

/-- R29, R40: while the header is searched for, what the pending fields and the checksum hold shows in no
later result, count or output port. What the output ports hold (R100, the spec's decision D11) they go on
showing until the first later reading, and no longer; it shows in no later result, count or `out_valid`. -/
def Obligations.HiddenValuesAreUnobservable : Prop :=
  ∀ (s s' : State) (bs : List Byte), s.phase = Phase.awaitHeader → s'.phase = Phase.awaitHeader →
    s.counterWidth = s'.counterWidth → s.SameCounters s' →
    ∃ t t' rs, feedAll bs s = some (t, rs) ∧ feedAll bs s' = some (t', rs) ∧ t.SameCounters t' ∧
      (bs ≠ [] → t.outValid = t'.outValid) ∧
      ((∃ r, some r ∈ rs) → t.outPm25 = t'.outPm25 ∧ t.outPm10 = t'.outPm10) ∧
      ((∀ r, some r ∉ rs) → t.outPm25 = s.outPm25 ∧ t.outPm10 = s.outPm10 ∧
        t'.outPm25 = s'.outPm25 ∧ t'.outPm10 = s'.outPm10)

/-- R60, R56 (decisions D12, D13): a QUERY presented between FEEDs returns the count as the last FEED left
it, and the FEEDs after it go as if it had not been there. -/
def Obligations.QueryBetweenFeedsIsTransparent : Prop :=
  ∀ (s : State) (k : BitVec 1) (bs : List Byte), Phase.Legal s.phase →
    ∃ q, exec (.query k) s = .next q ∧ q.result = .count (if k = 0#1 then s.badBytes else s.checksumFailures) ∧
      ∃ t t' rs, feedAll bs q = some (t, rs) ∧ feedAll bs s = some (t', rs) ∧ t.SameDecoder t'

/-- R112 with R110: a payload begins only after the exact pair `AA C0` fed from `AwaitHeader`: where
FEEDs from `AwaitHeader` end in `Data1`, their last two bytes are that pair and the bytes before it end in
`AwaitHeader`. -/
def Obligations.PayloadBeginsOnlyAfterHeaderPair : Prop :=
  ∀ (s t : State) (bs : List Byte) (rs : List (Option Reading)), s.phase = Phase.awaitHeader →
    feedAll bs s = some (t, rs) → t.phase = Phase.data1 →
    ∃ pre m ms, bs = pre ++ [0xAA#8, 0xC0#8] ∧ feedAll pre s = some (m, ms) ∧
      m.phase = Phase.awaitHeader
end

