-- ==== Sys2Proof/Laws/Decode.lean ====
section
/-! SUPPORT. The decode table read through its masks: what each mask leaves of a selector word, and the
row that a phase and a byte select. -/

namespace Sys2Proof

/-- A phase code is one of its sixteen values. -/
theorem phaseCode_cases (p : PhaseCode) :
    p = 0#4 ∨ p = 1#4 ∨ p = 2#4 ∨ p = 3#4 ∨ p = 4#4 ∨ p = 5#4 ∨ p = 6#4 ∨ p = 7#4 ∨
    p = 8#4 ∨ p = 9#4 ∨ p = 10#4 ∨ p = 11#4 ∨ p = 12#4 ∨ p = 13#4 ∨ p = 14#4 ∨ p = 15#4 := by
  revert p; decide

/-- A bit of a selector word is a bit of its byte or of its phase (R73). -/
theorem selWord_getLsbD (p : PhaseCode) (b : Byte) (i : Nat) :
    (selWord p b).getLsbD i = if i < 8 then b.getLsbD i else p.getLsbD (i - 8) :=
  BitVec.getLsbD_append (x := p) (y := b)

theorem selByte_selWord (p : PhaseCode) (b : Byte) : selByte (selWord p b) = b := by
  apply BitVec.eq_of_getLsbD_eq
  intro i hi
  simp [selByte, selWord_getLsbD, hi]

theorem selPhase_selWord (p : PhaseCode) (b : Byte) : selPhase (selWord p b) = p := by
  apply BitVec.eq_of_getLsbD_eq
  intro i hi
  simp [selPhase, selWord_getLsbD, hi]

/-- A selector word is its phase and its byte. -/
theorem selWord_parts (w : Selector) : selWord (selPhase w) (selByte w) = w := by
  apply BitVec.eq_of_getLsbD_eq
  intro i hi
  rw [selWord_getLsbD]
  split
  · simp [selByte, *]
  · have h4 : i - 8 < 4 := by omega
    have h8 : 8 + (i - 8) = i := by omega
    simp [selPhase, h4, h8]

/-- Two selector words are equal exactly when their phases and their bytes are. -/
theorem selWord_inj (p q : PhaseCode) (b c : Byte) : selWord p b = selWord q c ↔ p = q ∧ b = c := by
  constructor
  · intro h
    exact ⟨by rw [← selPhase_selWord p b, h, selPhase_selWord],
      by rw [← selByte_selWord p b, h, selByte_selWord]⟩
  · rintro ⟨rfl, rfl⟩
    rfl

theorem selWord_and (p m : PhaseCode) (b n : Byte) :
    selWord p b &&& selWord m n = selWord (p &&& m) (b &&& n) := by
  apply BitVec.eq_of_getLsbD_eq
  intro i _
  simp only [BitVec.getLsbD_and, selWord_getLsbD]
  split <;> rfl

/-- A row that masks phase bits only looks at the phase only. -/
theorem selWord_hits_phase (p q m : PhaseCode) (b : Byte) :
    (selWord p b &&& selWord m 0x00#8 == selWord q 0x00#8) = (p &&& m == q) := by
  rw [selWord_and, BitVec.and_zero, Bool.eq_iff_iff]
  simp [selWord_inj]

/-- A row with mask 0xF00 looks at the whole phase. -/
theorem selWord_hits_F00 (p q : PhaseCode) (b : Byte) :
    (selWord p b &&& 0xF00#12 == selWord q 0x00#8) = (p == q) := by
  have hp : p &&& 0xF#4 = p := BitVec.and_allOnes
  have h := selWord_hits_phase p q 0xF#4 b
  rwa [hp] at h

/-- A row with mask 0xFFF looks at the phase and the byte. -/
theorem selWord_hits_FFF (p q : PhaseCode) (b c : Byte) :
    (selWord p b &&& 0xFFF#12 == selWord q c) = (p == q && b == c) := by
  have hp : p &&& 0xF#4 = p := BitVec.and_allOnes
  have hb : b &&& 0xFF#8 = b := BitVec.and_allOnes
  show (selWord p b &&& selWord 0xF#4 0xFF#8 == selWord q c) = _
  rw [selWord_and, hp, hb, Bool.eq_iff_iff]
  simp [selWord_inj]

/-- The low phase bits that the ILLEGAL_PHASE rows keep. -/
theorem selWord_extractPhase (p : PhaseCode) (b : Byte) (n : Nat) (hn : n ≤ 4) :
    (selWord p b).extractLsb' 8 n = p.extractLsb' 0 n := by
  apply BitVec.eq_of_getLsbD_eq
  intro i hi
  have : i < 4 := by omega
  simp [selWord_getLsbD, hi]

open Machine in
/-- The first matching row of R74's table is the row of R82's case on the phase. -/
theorem decodeSel_selWord (rc : Byte) (p : PhaseCode) (b : Byte) :
    decodeSel rc (selWord p b) = some (feedRow rc p b) := by
  have hb : selByte (selWord p b) = b := selByte_selWord p b
  have hl := selWord_extractPhase p b 1 (by decide)
  have hh := selWord_extractPhase p b 2 (by decide)
  simp only [decodeSel, selRows, SelRow.hits, List.find?_cons, hb,
    show (selWord p b &&& 0xE00#12 == 0xA00#12) = (p &&& 0xE#4 == 0xA#4) from
      selWord_hits_phase p 0xA#4 0xE#4 b,
    show (selWord p b &&& 0xC00#12 == 0xC00#12) = (p &&& 0xC#4 == 0xC#4) from
      selWord_hits_phase p 0xC#4 0xC#4 b,
    show (selWord p b &&& 0xF00#12 == 0x000#12) = (p == 0#4) from selWord_hits_F00 p 0#4 b,
    show (selWord p b &&& 0xF00#12 == 0x100#12) = (p == 1#4) from selWord_hits_F00 p 1#4 b,
    show (selWord p b &&& 0xF00#12 == 0x200#12) = (p == 2#4) from selWord_hits_F00 p 2#4 b,
    show (selWord p b &&& 0xF00#12 == 0x300#12) = (p == 3#4) from selWord_hits_F00 p 3#4 b,
    show (selWord p b &&& 0xF00#12 == 0x400#12) = (p == 4#4) from selWord_hits_F00 p 4#4 b,
    show (selWord p b &&& 0xF00#12 == 0x500#12) = (p == 5#4) from selWord_hits_F00 p 5#4 b,
    show (selWord p b &&& 0xF00#12 == 0x600#12) = (p == 6#4) from selWord_hits_F00 p 6#4 b,
    show (selWord p b &&& 0xF00#12 == 0x700#12) = (p == 7#4) from selWord_hits_F00 p 7#4 b,
    show (selWord p b &&& 0xF00#12 == 0x800#12) = (p == 8#4) from selWord_hits_F00 p 8#4 b,
    show (selWord p b &&& 0xF00#12 == 0x900#12) = (p == 9#4) from selWord_hits_F00 p 9#4 b,
    show (selWord p b &&& 0xFFF#12 == 0x0AA#12) = (p == 0#4 && b == header) from
      selWord_hits_FFF p 0#4 b header,
    show (selWord p b &&& 0xFFF#12 == 0x1C0#12) = (p == 1#4 && b == command) from
      selWord_hits_FFF p 1#4 b command,
    show (selWord p b &&& 0xFFF#12 == 0x9AB#12) = (p == 9#4 && b == tail) from
      selWord_hits_FFF p 9#4 b tail]
  rcases phaseCode_cases p with rfl | rfl | rfl | rfl | rfl | rfl | rfl | rfl | rfl | rfl | rfl |
    rfl | rfl | rfl | rfl | rfl
  · by_cases h : b = header
    · subst h; rfl
    · rw [beq_false_of_ne h]
      show some (Instr.hdrReject (selByte (selWord 0#4 b))) =
        some (if b = header then .hdrAccept else .hdrReject b)
      rw [hb, if_neg h]
  · by_cases h : b = command
    · subst h; rfl
    · rw [beq_false_of_ne h]
      show some (Instr.cmdReject (selByte (selWord 1#4 b))) =
        some (if b = command then .cmdAccept else .cmdReject b)
      rw [hb, if_neg h]
  · exact congrArg (fun x => some (Instr.data1 x)) hb
  · exact congrArg (fun x => some (Instr.data2 x)) hb
  · exact congrArg (fun x => some (Instr.data3 x)) hb
  · exact congrArg (fun x => some (Instr.data4 x)) hb
  · exact congrArg (fun x => some (Instr.data5 x)) hb
  · exact congrArg (fun x => some (Instr.data6 x)) hb
  · by_cases h : b = rc
    · have hrc : (b == rc) = true := beq_iff_eq.mpr h
      rw [hrc]
      show some (Instr.cksumMatch (selByte (selWord 8#4 b))) =
        some (if b = rc then .cksumMatch b else .cksumMismatch b)
      rw [hb, if_pos h]
    · rw [beq_false_of_ne h]
      show some (Instr.cksumMismatch (selByte (selWord 8#4 b))) =
        some (if b = rc then .cksumMatch b else .cksumMismatch b)
      rw [hb, if_neg h]
  · by_cases h : b = tail
    · subst h; rfl
    · rw [beq_false_of_ne h]
      show some (Instr.tailBad (selByte (selWord 9#4 b))) =
        some (if b = tail then .tailOk else .tailBad b)
      rw [hb, if_neg h]
  all_goals simp [feedRow, Phase.awaitHeader, Phase.awaitCommand, Phase.data1, Phase.data2,
    Phase.data3, Phase.data4, Phase.data5, Phase.data6, Phase.awaitChecksum, Phase.awaitTail, hb, hl, hh]

end Sys2Proof
end

