-- ==== Sys2Proof/Laws/State.lean ====
section
/-! SUPPORT. One lemma per field per update of the state, true by rfl. -/

namespace Sys2Proof.Machine

variable (s : State) (r : Option Reading)

@[simp] theorem State.countBadByte_badBytes :
    s.countBadByte.badBytes = incW s.counterWidth s.badBytes := rfl
@[simp] theorem State.countBadByte_phase : s.countBadByte.phase = s.phase := rfl
@[simp] theorem State.countBadByte_pendPm25 : s.countBadByte.pendPm25 = s.pendPm25 := rfl
@[simp] theorem State.countBadByte_pendPm10 : s.countBadByte.pendPm10 = s.pendPm10 := rfl
@[simp] theorem State.countBadByte_runningChecksum :
    s.countBadByte.runningChecksum = s.runningChecksum := rfl
@[simp] theorem State.countBadByte_checksumFailures :
    s.countBadByte.checksumFailures = s.checksumFailures := rfl
@[simp] theorem State.countBadByte_outValid : s.countBadByte.outValid = s.outValid := rfl
@[simp] theorem State.countBadByte_outPm25 : s.countBadByte.outPm25 = s.outPm25 := rfl
@[simp] theorem State.countBadByte_outPm10 : s.countBadByte.outPm10 = s.outPm10 := rfl
@[simp] theorem State.countBadByte_counterWidth : s.countBadByte.counterWidth = s.counterWidth := rfl
@[simp] theorem State.countBadByte_input : s.countBadByte.input = s.input := rfl
@[simp] theorem State.countBadByte_result : s.countBadByte.result = s.result := rfl

@[simp] theorem State.countChecksumFailure_checksumFailures :
    s.countChecksumFailure.checksumFailures = incW s.counterWidth s.checksumFailures := rfl
@[simp] theorem State.countChecksumFailure_phase : s.countChecksumFailure.phase = s.phase := rfl
@[simp] theorem State.countChecksumFailure_pendPm25 :
    s.countChecksumFailure.pendPm25 = s.pendPm25 := rfl
@[simp] theorem State.countChecksumFailure_pendPm10 :
    s.countChecksumFailure.pendPm10 = s.pendPm10 := rfl
@[simp] theorem State.countChecksumFailure_runningChecksum :
    s.countChecksumFailure.runningChecksum = s.runningChecksum := rfl
@[simp] theorem State.countChecksumFailure_badBytes :
    s.countChecksumFailure.badBytes = s.badBytes := rfl
@[simp] theorem State.countChecksumFailure_outValid :
    s.countChecksumFailure.outValid = s.outValid := rfl
@[simp] theorem State.countChecksumFailure_outPm25 : s.countChecksumFailure.outPm25 = s.outPm25 := rfl
@[simp] theorem State.countChecksumFailure_outPm10 : s.countChecksumFailure.outPm10 = s.outPm10 := rfl
@[simp] theorem State.countChecksumFailure_counterWidth :
    s.countChecksumFailure.counterWidth = s.counterWidth := rfl
@[simp] theorem State.countChecksumFailure_input : s.countChecksumFailure.input = s.input := rfl
@[simp] theorem State.countChecksumFailure_result : s.countChecksumFailure.result = s.result := rfl

@[simp] theorem State.goto_phase (p : PhaseCode) : (s.goto p).phase = p := rfl
@[simp] theorem State.goto_pendPm25 (p : PhaseCode) : (s.goto p).pendPm25 = s.pendPm25 := rfl
@[simp] theorem State.goto_pendPm10 (p : PhaseCode) : (s.goto p).pendPm10 = s.pendPm10 := rfl
@[simp] theorem State.goto_runningChecksum (p : PhaseCode) : (s.goto p).runningChecksum = s.runningChecksum := rfl
@[simp] theorem State.goto_badBytes (p : PhaseCode) : (s.goto p).badBytes = s.badBytes := rfl
@[simp] theorem State.goto_checksumFailures (p : PhaseCode) : (s.goto p).checksumFailures = s.checksumFailures := rfl
@[simp] theorem State.goto_outValid (p : PhaseCode) : (s.goto p).outValid = s.outValid := rfl
@[simp] theorem State.goto_outPm25 (p : PhaseCode) : (s.goto p).outPm25 = s.outPm25 := rfl
@[simp] theorem State.goto_outPm10 (p : PhaseCode) : (s.goto p).outPm10 = s.outPm10 := rfl
@[simp] theorem State.goto_counterWidth (p : PhaseCode) : (s.goto p).counterWidth = s.counterWidth := rfl
@[simp] theorem State.goto_input (p : PhaseCode) : (s.goto p).input = s.input := rfl
@[simp] theorem State.goto_result (p : PhaseCode) : (s.goto p).result = s.result := rfl

@[simp] theorem State.feedReturns_result : (s.feedReturns r).result = .fed r := by cases r <;> rfl
@[simp] theorem State.feedReturns_outValid : (s.feedReturns r).outValid = r.isSome := by
  cases r <;> rfl
@[simp] theorem State.feedReturns_outPm25 :
    (s.feedReturns r).outPm25 = (r.map (·.pm25)).getD s.outPm25 := by cases r <;> rfl
@[simp] theorem State.feedReturns_outPm10 :
    (s.feedReturns r).outPm10 = (r.map (·.pm10)).getD s.outPm10 := by cases r <;> rfl
@[simp] theorem State.feedReturns_phase : (s.feedReturns r).phase = s.phase := by cases r <;> rfl
@[simp] theorem State.feedReturns_pendPm25 : (s.feedReturns r).pendPm25 = s.pendPm25 := by
  cases r <;> rfl
@[simp] theorem State.feedReturns_pendPm10 : (s.feedReturns r).pendPm10 = s.pendPm10 := by
  cases r <;> rfl
@[simp] theorem State.feedReturns_runningChecksum :
    (s.feedReturns r).runningChecksum = s.runningChecksum := by cases r <;> rfl
@[simp] theorem State.feedReturns_badBytes : (s.feedReturns r).badBytes = s.badBytes := by
  cases r <;> rfl
@[simp] theorem State.feedReturns_checksumFailures :
    (s.feedReturns r).checksumFailures = s.checksumFailures := by cases r <;> rfl
@[simp] theorem State.feedReturns_counterWidth : (s.feedReturns r).counterWidth = s.counterWidth := by
  cases r <;> rfl
@[simp] theorem State.feedReturns_input : (s.feedReturns r).input = s.input := by cases r <;> rfl

@[simp] theorem State.takeReset_input : s.takeReset.input = s.input := rfl
@[simp] theorem State.takeReset_counterWidth : s.takeReset.counterWidth = s.counterWidth := rfl
@[simp] theorem State.takeReset_phase : s.takeReset.phase = Phase.awaitHeader := rfl
@[simp] theorem State.takeReset_pendPm25 : s.takeReset.pendPm25 = 0x0000#16 := rfl
@[simp] theorem State.takeReset_pendPm10 : s.takeReset.pendPm10 = 0x0000#16 := rfl
@[simp] theorem State.takeReset_runningChecksum : s.takeReset.runningChecksum = checksumClear := rfl
@[simp] theorem State.takeReset_badBytes : s.takeReset.badBytes = 0 := rfl
@[simp] theorem State.takeReset_checksumFailures : s.takeReset.checksumFailures = 0 := rfl
@[simp] theorem State.takeReset_outValid : s.takeReset.outValid = false := rfl
@[simp] theorem State.takeReset_outPm25 : s.takeReset.outPm25 = 0x0000#16 := rfl
@[simp] theorem State.takeReset_outPm10 : s.takeReset.outPm10 = 0x0000#16 := rfl
@[simp] theorem State.takeReset_result : s.takeReset.result = .nothing := rfl

end Sys2Proof.Machine
end

