-- ==== Sys2Proof/Laws/Ops.lean ====
section
/-! SUPPORT. What each shared operation can answer. -/

namespace Sys2Proof.Machine

/-- A row answers a next state exactly when it is selected, and then its effect with the result returned. -/
theorem runRow_next {sel : Bool} {r : Option Reading} {e t : State} :
    runRow sel r e = .next t ↔ sel = true ∧ t = e.feedReturns r := by
  cases sel <;> simp [runRow, eq_comm]

theorem runRow_ne_fault {sel : Bool} {r : Option Reading} {e : State} {f : Fault} :
    runRow sel r e ≠ .fault f := by
  cases sel <;> simp [runRow]

/-- A selected row runs. -/
theorem runRow_true (r : Option Reading) (e : State) :
    runRow true r e = .next (e.feedReturns r) := rfl

/-- Raising the fault never answers a next state. -/
theorem raiseIllegalPhase_ne_next {sel : Bool} {c : PhaseCode} {t : State} :
    raiseIllegalPhase sel c ≠ .next t := by
  cases sel <;> simp [raiseIllegalPhase]

theorem raiseIllegalPhase_fault {sel : Bool} {c : PhaseCode} {f : Fault} :
    raiseIllegalPhase sel c = .fault f ↔ sel = true ∧ f = .illegalPhase c := by
  cases sel <;> simp [raiseIllegalPhase, eq_comm]

/-- FEED is its selected row (R90). -/
theorem execFeed_eq (b : Byte) (s : State) :
    execFeed b s = execSelRow (feedRow s.runningChecksum s.phase b) s := by
  simp only [execFeed, decodeSel_selWord]

/-- What the fetch answers where it answers an operation. -/
theorem fetch_ok {s t : State} {i : Instr} (h : fetch s = .ok (i, t)) :
    (s.input = [] ∧ i = .idle ∧ t = s) ∨
      ∃ w rest, s.input = w :: rest ∧ decode w = .ok i ∧ t = { s with input := rest } := by
  unfold fetch at h
  split at h
  · next hin =>
    injection h with h
    injection h with h1 h2
    exact .inl ⟨hin, h1.symm, h2.symm⟩
  · next w rest hin =>
    split at h
    · next j hj =>
      injection h with h
      injection h with h1 h2
      exact .inr ⟨w, rest, hin, h1 ▸ hj, h2.symm⟩
    · cases h

/-- A step that answers a next state executed the operation the fetch gave. -/
theorem step_next {s u : State} (h : step s = .next u) :
    ∃ i t, fetch s = .ok (i, t) ∧ exec i t = .next u := by
  unfold step at h
  split at h
  · next i t hf => exact ⟨i, t, hf, h⟩
  · cases h

/-- A W-bit increment stays in W bits (R33). -/
theorem incW_lt (w c : Nat) : incW w c < 2 ^ w := Nat.mod_lt _ (Nat.two_pow_pos w)

/-- Below the top, an increment adds exactly one (R33). -/
theorem incW_of_lt {w c : Nat} (h : c + 1 < 2 ^ w) : incW w c = c + 1 := Nat.mod_eq_of_lt h

/-- The top count wraps to zero (R33). -/
theorem incW_top (w : Nat) : incW w (2 ^ w - 1) = 0 := by
  simp [incW, Nat.sub_add_cancel (Nat.one_le_two_pow)]

theorem lowByte_zext16 (b : Byte) : lowByte (zext16 b) = b := by
  apply BitVec.eq_of_getLsbD_eq
  intro i hi
  have h16 : i < 16 := by omega
  simp [lowByte, zext16, hi, h16]

theorem highByte_zext16 (b : Byte) : highByte (zext16 b) = 0x00#8 := by
  apply BitVec.eq_of_getLsbD_eq
  intro i hi
  simp [highByte, zext16]

theorem lowByte_withHighByte (v : Field) (b : Byte) : lowByte (withHighByte v b) = lowByte v := by
  apply BitVec.eq_of_getLsbD_eq
  intro i hi
  have h16 : i < 16 := by omega
  simp [lowByte, withHighByte, zext16, hi, h16]

theorem highByte_withHighByte (v : Field) (b : Byte) : highByte (withHighByte v b) = b := by
  apply BitVec.eq_of_getLsbD_eq
  intro i hi
  have h16 : 8 + i < 16 := by omega
  simp [highByte, withHighByte, zext16, lowByte, hi, h16]

/-- The assembled field is the two bytes side by side, the high byte first (R51). -/
theorem withHighByte_eq_append (v : Field) (b : Byte) : withHighByte v b = b ++ lowByte v := by
  apply BitVec.eq_of_getLsbD_eq
  intro i hi
  rw [BitVec.getLsbD_append]
  by_cases h : i < 8
  · simp [withHighByte, zext16, h, hi]
  · have hi' : i - 8 < 8 := by omega
    simp [withHighByte, zext16, h, hi, lowByte]

end Sys2Proof.Machine
end

