-- ==== Sys2Proof/Laws/Feed.lean ====
section
/-! SUPPORT. What a FEED can do: one case for each reachable row of spec/30_encoding.md R74. -/

namespace Sys2Proof.Machine

/-- The port and query operations are the instructions that are no selector row. -/
theorem execSelRow_eq_exec {i : Instr} (hr : i ≠ .reset) (hi : i ≠ .idle) (hf : ∀ b, i ≠ .feed b)
    (hq : ∀ k, i ≠ .query k) (s : State) : execSelRow i s = exec i s := by
  cases i <;> simp_all [execSelRow, exec]

/-- Everything a FEED that answers a next state can have done (R82). -/
theorem exec_feed_next {b : Byte} {s t : State} (h : exec (.feed b) s = .next t) :
    (s.phase = Phase.awaitHeader ∧ b = header ∧
      t = ({ s with phase := Phase.awaitCommand, runningChecksum := checksumClear } : State).feedReturns none) ∨
    (s.phase = Phase.awaitHeader ∧ b ≠ header ∧ t = s.countBadByte.feedReturns none) ∨
    (s.phase = Phase.awaitCommand ∧ b = command ∧ t = (s.goto Phase.data1).feedReturns none) ∨
    (s.phase = Phase.awaitCommand ∧ b ≠ command ∧
      t = (s.countBadByte.goto Phase.awaitHeader).feedReturns none) ∨
    (s.phase = Phase.data1 ∧
      t = ({ s with pendPm25 := zext16 b, runningChecksum := b, phase := Phase.data2 } : State).feedReturns
        none) ∨
    (s.phase = Phase.data2 ∧
      t = ({ s with pendPm25 := withHighByte s.pendPm25 b, runningChecksum := add8 s.runningChecksum b,
                    phase := Phase.data3 } : State).feedReturns none) ∨
    (s.phase = Phase.data3 ∧
      t = ({ s with pendPm10 := zext16 b, runningChecksum := add8 s.runningChecksum b,
                    phase := Phase.data4 } : State).feedReturns none) ∨
    (s.phase = Phase.data4 ∧
      t = ({ s with pendPm10 := withHighByte s.pendPm10 b, runningChecksum := add8 s.runningChecksum b,
                    phase := Phase.data5 } : State).feedReturns none) ∨
    (s.phase = Phase.data5 ∧
      t = ({ s with runningChecksum := add8 s.runningChecksum b, phase := Phase.data6 } : State).feedReturns
        none) ∨
    (s.phase = Phase.data6 ∧
      t = ({ s with runningChecksum := add8 s.runningChecksum b,
                    phase := Phase.awaitChecksum } : State).feedReturns none) ∨
    (s.phase = Phase.awaitChecksum ∧ b = s.runningChecksum ∧
      t = (s.goto Phase.awaitTail).feedReturns (some { pm25 := s.pendPm25, pm10 := s.pendPm10 })) ∨
    (s.phase = Phase.awaitChecksum ∧ b ≠ s.runningChecksum ∧
      t = (s.countChecksumFailure.goto Phase.awaitHeader).feedReturns none) ∨
    (s.phase = Phase.awaitTail ∧ b = tail ∧ t = (s.goto Phase.awaitHeader).feedReturns none) ∨
    (s.phase = Phase.awaitTail ∧ b ≠ tail ∧
      t = (s.countBadByte.goto Phase.awaitHeader).feedReturns none) := by
  rw [show exec (.feed b) s = execFeed b s from rfl, execFeed_eq] at h
  rcases phaseCode_cases s.phase with hp | hp | hp | hp | hp | hp | hp | hp | hp | hp | hp |
    hp | hp | hp | hp | hp <;>
  simp [hp, feedRow, Phase.awaitHeader, Phase.awaitCommand, Phase.data1, Phase.data2, Phase.data3,
    Phase.data4, Phase.data5, Phase.data6, Phase.awaitChecksum, Phase.awaitTail] at h ⊢
  case inl =>
    split at h <;> simp_all [execSelRow, execHdrAccept, execHdrReject, runRow_next, Phase.awaitCommand]
  case inr.inl =>
    split at h <;>
      simp_all [execSelRow, execCmdAccept, execCmdReject, runRow_next, Phase.awaitHeader, Phase.data1]
  case inr.inr.inr.inr.inr.inr.inr.inr.inl =>
    split at h <;> simp_all [execSelRow, execCksumMatch, execCksumMismatch, runRow_next,
      Phase.awaitHeader, Phase.awaitTail]
  case inr.inr.inr.inr.inr.inr.inr.inr.inr.inl =>
    split at h <;> simp_all [execSelRow, execTailOk, execTailBad, runRow_next, Phase.awaitHeader]
  all_goals simp_all [execSelRow, execData1, execData2, execData3, execData4, execData5, execData6,
    runRow_next, execIllegalPhaseLow, execIllegalPhaseHigh, raiseIllegalPhase_ne_next, Phase.data2,
    Phase.data3, Phase.data4, Phase.data5, Phase.data6, Phase.awaitChecksum]

end Sys2Proof.Machine
end

