-- ==== Sys2Proof/Laws/PerInstr.lean ====
section
/-! SUPPORT. A statement for every instruction: its encoded word is hit by its own row of its own format,
and that row builds it again (spec/30_encoding.md R74, R83). -/

namespace Sys2Proof.Laws.EncodedInRow

open Sys2Proof

/-- The row of an instruction takes its encoded word, where the instruction is well formed and the
condition of a checksum row holds. -/
def Statement (i : Instr) : Prop :=
  ∀ rc : Byte, i.wellFormed = true → i.conditionHolds rc = true →
    match encode i with
    | .sel12 w => ∃ r ∈ selRows, r.hits rc w = true ∧ r.build w = i
    | .port2 pins b => ∃ r ∈ portRows, (pins &&& r.mask == r.pattern) = true ∧ r.build b = i
    | .qidx1 k => k.toNat < 2

/-- A row with mask 0xF00 takes every word of its phase. -/
theorem row_F00 (q : PhaseCode) (f : Byte → Instr) (rc b : Byte)
    (h : ⟨selWord q 0x00#8, 0xF00#12, false, fun w => f (selByte w)⟩ ∈ selRows) :
    ∃ r ∈ selRows, r.hits rc (selWord q b) = true ∧ r.build (selWord q b) = f b := by
  refine ⟨_, h, ?_, ?_⟩
  · simp [SelRow.hits, selWord_hits_F00 q q b]
  · simp only [selByte_selWord]

theorem hdrAccept : Statement .hdrAccept := by
  intro rc _ _
  exact ⟨⟨0x0AA#12, 0xFFF#12, false, fun _ => .hdrAccept⟩, by simp [selRows], rfl, rfl⟩

theorem hdrReject (b : Byte) : Statement (.hdrReject b) := by
  intro rc _ _
  exact row_F00 0#4 .hdrReject rc b (List.Mem.tail _ (List.Mem.head _))

theorem cmdAccept : Statement .cmdAccept := by
  intro rc _ _
  exact ⟨⟨0x1C0#12, 0xFFF#12, false, fun _ => .cmdAccept⟩, by simp [selRows], rfl, rfl⟩

theorem cmdReject (b : Byte) : Statement (.cmdReject b) := by
  intro rc _ _
  exact row_F00 1#4 .cmdReject rc b (List.mem_of_getElem? (i := 3) rfl)

theorem data1 (b : Byte) : Statement (.data1 b) := by
  intro rc _ _
  exact row_F00 2#4 .data1 rc b (List.mem_of_getElem? (i := 4) rfl)

theorem data2 (b : Byte) : Statement (.data2 b) := by
  intro rc _ _
  exact row_F00 3#4 .data2 rc b (List.mem_of_getElem? (i := 5) rfl)

theorem data3 (b : Byte) : Statement (.data3 b) := by
  intro rc _ _
  exact row_F00 4#4 .data3 rc b (List.mem_of_getElem? (i := 6) rfl)

theorem data4 (b : Byte) : Statement (.data4 b) := by
  intro rc _ _
  exact row_F00 5#4 .data4 rc b (List.mem_of_getElem? (i := 7) rfl)

theorem data5 (b : Byte) : Statement (.data5 b) := by
  intro rc _ _
  exact row_F00 6#4 .data5 rc b (List.mem_of_getElem? (i := 8) rfl)

theorem data6 (b : Byte) : Statement (.data6 b) := by
  intro rc _ _
  exact row_F00 7#4 .data6 rc b (List.mem_of_getElem? (i := 9) rfl)

theorem cksumMatch (b : Byte) : Statement (.cksumMatch b) := by
  intro rc _ hc
  have hb : b = rc := by simpa [Instr.conditionHolds] using hc
  refine ⟨⟨0x800#12, 0xF00#12, true, fun w => .cksumMatch (selByte w)⟩, by simp [selRows], ?_, ?_⟩
  · show (selWord 8#4 b &&& 0xF00#12 == selWord 8#4 0x00#8 && (!true || selByte (selWord 8#4 b) == rc)) = true
    rw [selWord_hits_F00, selByte_selWord, hb]
    simp
  · exact congrArg Instr.cksumMatch (selByte_selWord 8#4 b)

theorem cksumMismatch (b : Byte) : Statement (.cksumMismatch b) := by
  intro rc _ _
  exact row_F00 8#4 .cksumMismatch rc b (List.mem_of_getElem? (i := 11) rfl)

theorem tailOk : Statement .tailOk := by
  intro rc _ _
  exact ⟨⟨0x9AB#12, 0xFFF#12, false, fun _ => .tailOk⟩, by simp [selRows], rfl, rfl⟩

theorem tailBad (b : Byte) : Statement (.tailBad b) := by
  intro rc _ _
  exact row_F00 9#4 .tailBad rc b (List.mem_of_getElem? (i := 13) rfl)

theorem illegalPhaseLow (p : BitVec 1) (b : Byte) : Statement (.illegalPhaseLow p b) := by
  intro rc _ _
  have hp : ∀ q : BitVec 1, (0b101#3 ++ q) &&& 0xE#4 = 0xA#4 ∧ (0b101#3 ++ q).extractLsb' 0 1 = q := by
    decide
  refine ⟨⟨0xA00#12, 0xE00#12, false, fun w => .illegalPhaseLow (w.extractLsb' 8 1) (selByte w)⟩,
    by simp [selRows], ?_, ?_⟩
  · show (selWord (0b101#3 ++ p) b &&& selWord 0xE#4 0x00#8 == selWord 0xA#4 0x00#8 && true) = true
    rw [selWord_hits_phase, (hp p).1]
    rfl
  · exact congrArg₂ Instr.illegalPhaseLow
      ((selWord_extractPhase _ b 1 (by decide)).trans (hp p).2) (selByte_selWord _ b)

theorem illegalPhaseHigh (p : BitVec 2) (b : Byte) : Statement (.illegalPhaseHigh p b) := by
  intro rc _ _
  have hp : ∀ q : BitVec 2, (0b11#2 ++ q) &&& 0xC#4 = 0xC#4 ∧ (0b11#2 ++ q).extractLsb' 0 2 = q := by
    decide
  refine ⟨⟨0xC00#12, 0xC00#12, false, fun w => .illegalPhaseHigh (w.extractLsb' 8 2) (selByte w)⟩,
    by simp [selRows], ?_, ?_⟩
  · show (selWord (0b11#2 ++ p) b &&& selWord 0xC#4 0x00#8 == selWord 0xC#4 0x00#8 && true) = true
    rw [selWord_hits_phase, (hp p).1]
    rfl
  · exact congrArg₂ Instr.illegalPhaseHigh
      ((selWord_extractPhase _ b 2 (by decide)).trans (hp p).2) (selByte_selWord _ b)

theorem reset : Statement .reset := by
  intro rc _ _
  exact ⟨⟨0b10#2, 0b10#2, fun _ => .reset⟩, by simp [portRows], rfl, rfl⟩

theorem feed (b : Byte) : Statement (.feed b) := by
  intro rc _ _
  exact ⟨⟨0b01#2, 0b11#2, fun c => .feed c⟩, by simp [portRows], rfl, rfl⟩

theorem idle : Statement .idle := by
  intro rc _ _
  exact ⟨⟨0b00#2, 0b11#2, fun _ => .idle⟩, by simp [portRows], rfl, rfl⟩

theorem query (i : BitVec 1) : Statement (.query i) := by
  intro rc _ _
  exact i.isLt

end Sys2Proof.Laws.EncodedInRow
end

