-- ==== Sys2Proof/Laws/Run.lean ====
section
/-! SUPPORT. How a run unrolls: one step of the core, one FEED of a list of FEEDs, and two lists joined. -/

namespace Sys2Proof.Machine

/-- A run goes on from the next state of its first step. -/
theorem core_run_of_next {s t : State} (n : Nat) (h : step s = .next t) :
    core.run (n + 1) s = core.run n t := by
  have hc : core.step s = .next t := h
  simp only [Host.Core.run]
  rw [hc]

/-- A run ends at the fault of its first step, however many steps it was given (R164; log entry 8). -/
theorem core_run_of_fault {s : State} {f : Fault} (n : Nat) (h : step s = .fault f) :
    core.run (n + 1) s = .fault f := by
  have hc : core.step s = .fault f := h
  simp only [Host.Core.run]
  rw [hc]

/-- The first FEED of a list, then the others from where it ended. -/
theorem feedAll_cons_of_next {b : Byte} {s t : State} (bs : List Byte) (h : exec (.feed b) s = .next t) :
    feedAll (b :: bs) s = (feedAll bs t).map fun p => (p.1, t.fedResult :: p.2) := by
  simp only [feedAll, h]

/-- Two bursts are one burst of both (R59). -/
theorem feedAll_append : ∀ (bs cs : List Byte) (s m : State) (rs : List (Option Reading)),
    feedAll bs s = some (m, rs) → feedAll (bs ++ cs) s = (feedAll cs m).map fun p => (p.1, rs ++ p.2)
  | [], cs, s, m, rs, h => by
    obtain ⟨rfl, rfl⟩ : s = m ∧ [] = rs := by simpa [feedAll] using h
    simp
  | b :: bs, cs, s, m, rs, h => by
    simp only [feedAll, List.cons_append] at h ⊢
    split at h
    · rename_i t _
      obtain ⟨ms, hms, rfl⟩ : ∃ ms, feedAll bs t = some (m, ms) ∧ t.fedResult :: ms = rs := by
        simpa using h
      rw [feedAll_append bs cs t m ms hms]
      cases feedAll cs m <;> simp
    · cases h
    · cases h

end Sys2Proof.Machine
end

