-- ==== Sys2Proof/Tests/Slice0.lean ====
section
/-! SUPPORT. Tests: expected results are those of spec/95_test_vectors.md (named in each comment) or read
off the table of spec/30_encoding.md R74; and a witness for each statement with hypotheses. -/

namespace Sys2Proof.Tests

open Sys2Proof Sys2Proof.Machine

/-! ## Helpers -/

/-- A state at a phase with a checksum, at W = 8. -/
def at8 (p : PhaseCode) (rc : Byte) : State :=
  { State.resetAt 8 with phase := p, runningChecksum := rc }

/-- Whether an answer is a next state with a property. -/
def nextHas (o : Answer) (p : State → Bool) : Bool :=
  match o with
  | .next t => p t
  | .fault _ => false
  | .refused _ => false

/-- The phase, the results and both counters after a run of FEEDs. -/
def runHas (bs : List Byte) (s : State) (p : State → List (Option Reading) → Bool) : Bool :=
  match feedAll bs s with
  | some (t, rs) => p t rs
  | none => false

/-! ## WellFormed: an ill-formed term for each check -/

theorem test_wf_hdrReject : (Instr.hdrReject 0xAA#8).wellFormed = false := by decide
theorem test_wf_cmdReject : (Instr.cmdReject 0xC0#8).wellFormed = false := by decide
theorem test_wf_tailBad : (Instr.tailBad 0xAB#8).wellFormed = false := by decide
theorem test_condition_match : Instr.conditionHolds 0xE2#8 (.cksumMatch 0xE3#8) = false := by decide
theorem test_condition_mismatch : Instr.conditionHolds 0xE2#8 (.cksumMismatch 0xE2#8) = false := by decide

/-! ## Decoding: a word of each row, its bits written out from R74 and R83 -/

theorem test_decode_hdr :
    decodeSel 0#8 0b000010101010#12 = some .hdrAccept ∧
    decodeSel 0#8 0b000011000000#12 = some (.hdrReject 0xC0#8) := by decide
theorem test_decode_cmd :
    decodeSel 0#8 0b000111000000#12 = some .cmdAccept ∧
    decodeSel 0#8 0b000110101010#12 = some (.cmdReject 0xAA#8) := by decide
theorem test_decode_pm25 :
    decodeSel 0#8 0b001001111101#12 = some (.data1 0x7D#8) ∧
    decodeSel 0#8 0b001100010010#12 = some (.data2 0x12#8) := by decide
theorem test_decode_pm10 :
    decodeSel 0#8 0b010000110010#12 = some (.data3 0x32#8) ∧
    decodeSel 0#8 0b010100001010#12 = some (.data4 0x0A#8) := by decide
theorem test_decode_id :
    decodeSel 0#8 0b011000010001#12 = some (.data5 0x11#8) ∧
    decodeSel 0#8 0b011100100010#12 = some (.data6 0x22#8) := by decide
theorem test_decode_cksum :
    decodeSel 0xE2#8 0b100011100010#12 = some (.cksumMatch 0xE2#8) ∧
    decodeSel 0xE2#8 0b100011100011#12 = some (.cksumMismatch 0xE3#8) := by decide
theorem test_decode_tail :
    decodeSel 0#8 0b100110101011#12 = some .tailOk ∧
    decodeSel 0#8 0b100110101010#12 = some (.tailBad 0xAA#8) := by decide
theorem test_decode_illegal :
    decodeSel 0#8 0b101100000001#12 = some (.illegalPhaseLow 1#1 0x01#8) ∧
    decodeSel 0#8 0b110000000010#12 = some (.illegalPhaseHigh 0#2 0x02#8) ∧
    decodeSel 0#8 0b111111111111#12 = some (.illegalPhaseHigh 3#2 0xFF#8) := by decide
theorem test_decode_port :
    decodePort 0b10#2 0x00#8 = some .reset ∧ decodePort 0b11#2 0xAA#8 = some .reset ∧
    decodePort 0b01#2 0x5F#8 = some (.feed 0x5F#8) ∧ decodePort 0b00#2 0x5F#8 = some .idle := by decide
theorem test_decode_query :
    decodeQuery 0 = some (.query 0#1) ∧ decodeQuery 1 = some (.query 1#1) ∧ decodeQuery 2 = none := by
  decide
theorem test_decode_table_word :
    decodeTableWord 16 0x0AA = some .hdrAccept ∧ decodeTableWord 12 0x100 = some (.cmdReject 0#8) ∧
    decodeTableWord 8 2 = some .reset ∧ decodeTableWord 8 1 = some (.feed 0#8) ∧
    decodeTableWord 8 0 = some .idle ∧ decodeTableWord 1 1 = some (.query 1#1) := by decide
theorem test_placed_word_runs :
    nextHas (step (State.reset.withFetchWord 16 0x27D)) (fun t => t.pendPm25 == 0x007D#16) = true := by
  decide
/-- R81's example frame, program P1. -/
theorem test_frame_pseudo :
    frameBytes 0x1234#16 0x0ABC#16 0xA1B2#16 =
      [0xAA#8, 0xC0#8, 0x34#8, 0x12#8, 0xBC#8, 0x0A#8, 0xB2#8, 0xA1#8, 0x5F#8, 0xAB#8] := by decide

/-! ## The rows -/

/-- V-HC-1. -/
theorem test_hdrAccept :
    nextHas (exec (.feed 0xAA#8) (at8 0 0x5A#8))
      (fun t => t.phase == 1#4 && t.runningChecksum == 0x00#8 && t.result == .fed none) = true := by decide
/-- V-HC-11: the wrap at W = 8. -/
theorem test_hdrReject_wraps :
    nextHas (exec (.feed 0x00#8) { at8 0 0 with badBytes := 0xFF })
      (fun t => t.phase == 0#4 && t.badBytes == 0) = true := by decide
/-- V-HC-12: the wrap at W = 32. -/
theorem test_hdrReject_wraps32 :
    nextHas (exec (.hdrReject 0x01#8) { State.reset with badBytes := 0xFFFFFFFF })
      (fun t => t.badBytes == 0) = true := by decide
/-- V-HC-6. -/
theorem test_cmdAccept :
    nextHas (exec (.feed 0xC0#8) (at8 1 0)) (fun t => t.phase == 2#4 && t.badBytes == 0) = true := by decide
/-- V-HC-7. -/
theorem test_cmdReject :
    nextHas (exec (.feed 0xAA#8) (at8 1 0)) (fun t => t.phase == 0#4 && t.badBytes == 1) = true := by decide
/-- V-PL-1. -/
theorem test_data1 :
    nextHas (exec (.feed 0x7D#8) { at8 2 0 with pendPm25 := 0xBEEF#16 })
      (fun t => t.phase == 3#4 && t.pendPm25 == 0x007D#16 && t.runningChecksum == 0x7D#8) = true := by decide
/-- V-PL-3 and V-PL-4. -/
theorem test_data2 :
    nextHas (exec (.feed 0x12#8) { at8 3 0x34#8 with pendPm25 := 0x0034#16 })
      (fun t => t.phase == 4#4 && t.pendPm25 == 0x1234#16 && t.runningChecksum == 0x46#8) = true := by decide
theorem test_data2_wraps :
    nextHas (exec (.feed 0xFF#8) { at8 3 0xFF#8 with pendPm25 := 0x00FF#16 })
      (fun t => t.pendPm25 == 0xFFFF#16 && t.runningChecksum == 0xFE#8) = true := by decide
/-- V-PL-5. -/
theorem test_data3 :
    nextHas (exec (.feed 0x32#8) { at8 4 0x7D#8 with pendPm10 := 0x1234#16 })
      (fun t => t.phase == 5#4 && t.pendPm10 == 0x0032#16 && t.runningChecksum == 0xAF#8) = true := by decide
/-- V-PL-6. -/
theorem test_data4 :
    nextHas (exec (.feed 0x0A#8) { at8 5 0x02#8 with pendPm10 := 0x00BC#16 })
      (fun t => t.phase == 6#4 && t.pendPm10 == 0x0ABC#16 && t.runningChecksum == 0x0C#8) = true := by decide
/-- V-PL-9. -/
theorem test_data5_wraps :
    nextHas (exec (.feed 0x20#8) (at8 6 0xF0#8))
      (fun t => t.phase == 7#4 && t.runningChecksum == 0x10#8) = true := by decide
/-- V-PL-11. -/
theorem test_data6_wraps :
    nextHas (exec (.feed 0xFF#8) (at8 7 0x01#8))
      (fun t => t.phase == 8#4 && t.runningChecksum == 0x00#8) = true := by decide
/-- V-CT-1 and V-HO-5. -/
theorem test_cksumMatch :
    nextHas (exec (.feed 0xE2#8) { at8 8 0xE2#8 with pendPm25 := 0x007D#16, pendPm10 := 0x0032#16 })
      (fun t => t.phase == 9#4 && t.result == .fed (some ⟨125#16, 50#16⟩) && t.outValid &&
        t.outPm25 == 0x007D#16 && t.outPm10 == 0x0032#16) = true := by decide
/-- V-CT-4. -/
theorem test_cksumMismatch :
    nextHas (exec (.feed 0xAA#8) (at8 8 0xE2#8))
      (fun t => t.phase == 0#4 && t.checksumFailures == 1 && t.badBytes == 0) = true := by decide
/-- V-CT-8. -/
theorem test_tailOk :
    nextHas (exec (.feed 0xAB#8) (at8 9 0)) (fun t => t.phase == 0#4 && t.badBytes == 0) = true := by decide
/-- V-CT-10. -/
theorem test_tailBad :
    nextHas (exec (.feed 0xAA#8) (at8 9 0)) (fun t => t.phase == 0#4 && t.badBytes == 1) = true := by decide
/-- V-CT-11. -/
theorem test_illegalPhase : exec (.feed 0x00#8) (at8 12 0) = .fault (.illegalPhase 12#4) := by rfl
/-- V-HO-1 and V-HO-2. -/
theorem test_query :
    nextHas (exec (.query 0#1) { at8 4 0 with badBytes := 5, checksumFailures := 2 })
      (fun t => t.result == .count 5) = true ∧
    nextHas (exec (.query 1#1) { at8 4 0 with badBytes := 5, checksumFailures := 2 })
      (fun t => t.result == .count 2 && t.badBytes == 5) = true := by decide
/-- V-HO-3. -/
theorem test_query_two : step { at8 0 0 with input := [.query 2] } = .refused (.noOperation (.queryIndex 2)) :=
  by rfl
/-- V-HO-4. -/
theorem test_reset :
    nextHas (exec .reset { at8 4 0x7D#8 with badBytes := 5, checksumFailures := 2, pendPm25 := 0x007D#16 })
      (fun t => t == State.resetAt 8) = true := by decide
/-- V-HO-6. -/
theorem test_idle :
    nextHas (exec .idle { at8 9 0xE2#8 with outValid := true, outPm25 := 0x007D#16, outPm10 := 0x0032#16 })
      (fun t => !t.outValid && t.outPm25 == 0x007D#16 && t.outPm10 == 0x0032#16 && t.phase == 9#4) = true := by
  decide
/-- V-HO-7. -/
theorem test_reset_wins :
    nextHas (step { at8 0 0 with input := [.port 0b11#2 0x00#8] })
      (fun t => t.badBytes == 0 && t.input == []) = true := by decide
/-- V-HO-8, the QUERY before and after the FEED. -/
theorem test_port_read_order :
    nextHas (step { at8 0 0 with badBytes := 3, input := [.query 0, feedWord 0x00#8, .query 0] })
      (fun t => t.result == .count 3 &&
        nextHas (step t) (fun u => nextHas (step u) (fun v => v.result == .count 4))) = true := by decide
/-- R151's labels. -/
theorem test_events :
    (feedEvent (at8 0 0) 0x00#8).map eventCode = some 2 ∧ (feedEvent (at8 1 0) 0xAA#8).map eventCode = some 3 ∧
    (feedEvent (at8 8 0) 0x01#8).map eventCode = some 4 ∧ (feedEvent (at8 9 0) 0xAA#8).map eventCode = some 5 ∧
    (feedEvent (at8 8 0) 0x00#8).map eventCode = some 1 ∧ (feedEvent (at8 0 0) 0xAA#8).map eventCode = some 0 := by
  decide
/-- V-L1-1. -/
theorem test_valid_frame :
    runHas (frameBytes 125#16 50#16 0x2211#16) State.reset
      (fun t rs => t.phase == 0#4 && t.badBytes == 0 && t.checksumFailures == 0 && t.runningChecksum == 0xE2#8 &&
        rs == List.replicate 8 none ++ [some ⟨125#16, 50#16⟩, none]) = true := by decide

/-! ## Witnesses: the hypotheses of each statement hold together somewhere -/

/-- Phases of the row statements, and a byte for each "not equal". -/
theorem witness_rows :
    (at8 0 0).phase = Phase.awaitHeader ∧ (0x00#8 : Byte) ≠ 0xAA#8 ∧
    (at8 1 0).phase = Phase.awaitCommand ∧ (0xAA#8 : Byte) ≠ 0xC0#8 ∧ (at8 2 0).phase = Phase.data1 ∧
    (at8 3 0).phase = Phase.data2 ∧ (at8 4 0).phase = Phase.data3 ∧ (at8 5 0).phase = Phase.data4 ∧
    (at8 6 0).phase = Phase.data5 ∧ (at8 7 0).phase = Phase.data6 ∧
    (at8 9 0).phase = Phase.awaitTail ∧ (0xAA#8 : Byte) ≠ 0xAB#8 := by decide
theorem witness_cksumMatchEmits :
    (at8 8 0xE2#8).phase = Phase.awaitChecksum ∧ 0xE2#8 = (at8 8 0xE2#8).runningChecksum := by decide
theorem witness_cksumMismatch :
    (at8 8 0xE2#8).phase = Phase.awaitChecksum ∧ 0xE3#8 ≠ (at8 8 0xE2#8).runningChecksum := by decide
/-- Boundary codes 10, 11 of the first clause, 12, 15 of the second, and 10 of the third. -/
theorem witness_illegalPhase :
    (at8 10 0).phase = 0b101#3 ++ 0#1 ∧ (at8 11 0).phase = 0b101#3 ++ 1#1 ∧
    (at8 12 0).phase = 0b11#2 ++ 0#2 ∧ (at8 15 0).phase = 0b11#2 ++ 3#2 ∧ ¬ Phase.Legal (at8 10 0).phase := by
  decide
theorem witness_cmdAccept_only :
    ∃ t, exec .cmdAccept (at8 1 0) = .next t ∧ (at8 1 0).phase ≠ Phase.data1 ∧ t.phase = Phase.data1 :=
  ⟨_, rfl, by decide, by decide⟩
/-- CmdAcceptEntersData1's clauses on `AwaitCommand`: entered by each of its two operations, and kept by
each that stays. -/
theorem witness_awaitCommand_only :
    (∃ t u, exec .hdrAccept (at8 0 0) = .next t ∧ exec (.feed 0xAA#8) (at8 0 0) = .next u ∧
      (at8 0 0).phase ≠ Phase.awaitCommand ∧ t.phase = Phase.awaitCommand ∧ u.phase = Phase.awaitCommand) ∧
    (∃ t u, exec .idle (at8 1 0) = .next t ∧ exec (.query 1#1) (at8 1 0) = .next u ∧
      (at8 1 0).phase = Phase.awaitCommand ∧ t.phase = Phase.awaitCommand ∧ u.phase = Phase.awaitCommand) :=
  ⟨⟨_, _, rfl, rfl, by decide, rfl, rfl⟩, _, _, rfl, rfl, rfl, rfl, rfl⟩
theorem witness_awaitTail_only :
    ∃ t, exec (.cksumMatch 0xE2#8) (at8 8 0xE2#8) = .next t ∧ (at8 8 0xE2#8).phase ≠ Phase.awaitTail ∧
      t.phase = Phase.awaitTail := ⟨_, rfl, by decide, by decide⟩
theorem witness_unselectedRow :
    ∃ t, exec .tailOk (at8 9 0) = .next t ∧ Instr.tailOk ≠ .reset ∧ Instr.tailOk ≠ .idle ∧
      (∀ b, Instr.tailOk ≠ .feed b) ∧ (∀ k, Instr.tailOk ≠ .query k) :=
  ⟨_, rfl, by decide, by decide, fun _ h => (nomatch h), fun _ h => (nomatch h)⟩
/-- FeedNeverFails, LegalStatesNeverFault, QueryBetweenFeedsIsTransparent: the first and the last legal phase. -/
theorem witness_legalPhase : Phase.Legal (at8 0 0).phase ∧ Phase.Legal (at8 9 0).phase := by decide
/-- FeedNeverFails, a byte for each row it names: the four that reject, and one that does not. -/
theorem witness_feedAbsorbs :
    decodeSel 0#8 (selWord (at8 0 0).phase 0xAB#8) = some (.hdrReject 0xAB#8) ∧
    decodeSel 0#8 (selWord (at8 1 0).phase 0xC1#8) = some (.cmdReject 0xC1#8) ∧
    decodeSel 0#8 (selWord (at8 8 0).phase 0x01#8) = some (.cksumMismatch 0x01#8) ∧
    decodeSel 0#8 (selWord (at8 9 0).phase 0xAA#8) = some (.tailBad 0xAA#8) ∧
    decodeSel 0#8 (selWord (at8 9 0).phase 0xAB#8) = some .tailOk := by decide
theorem witness_resetWins :
    ({ at8 4 0 with input := [.port 0b11#2 0x00#8] } : State).input = .port (1#1 ++ 1#1) 0x00#8 :: [] := by
  decide
theorem witness_stepRuns :
    ({ at8 0 0 with input := [feedWord 0xAA#8] } : State).input = feedWord 0xAA#8 :: [] ∧
    decode (feedWord 0xAA#8) = .ok (.feed 0xAA#8) ∧ (at8 0 0).input = [] := ⟨rfl, rfl, rfl⟩
/-- A word of each format, at the top of its range. -/
theorem witness_placedTableWord :
    decodeTableWord 16 0xFFF = some (.illegalPhaseHigh 3#2 0xFF#8) ∧ decodeTableWord 8 3 = some .reset ∧
    decodeTableWord 1 1 = some (.query 1#1) ∧ decodeTableWord 16 0x800 = some (.cksumMatch 0#8) ∧
    decodeTableWord 16 0x8FF = some (.cksumMismatch 0xFF#8) := by decide
theorem witness_noOperation :
    ({ at8 0 0 with input := [.query 2] } : State).input = .query 2 :: [] ∧ 2 ≤ 2 ∧
    ({ at8 0 0 with input := [.request .readPhase] } : State).input = .request .readPhase :: [] := by decide
theorem witness_decodeTable_illegal :
    ¬ Phase.Legal 10#4 ∧ selRows[14]?.map (·.hits 0#8 (selWord 10#4 0#8)) = some true ∧
    ¬ Phase.Legal 15#4 ∧ selRows[15]?.map (·.hits 0#8 (selWord 15#4 0#8)) = some true := by decide
theorem witness_encode :
    (Instr.hdrReject 0x00#8).wellFormed = true ∧ Instr.conditionHolds 0xE2#8 (.cksumMatch 0xE2#8) = true := by
  decide
theorem witness_payloadFrame :
    Instr.data6 0xFF#8 ∈ [Instr.data1 0xFF#8, .data2 0xFF#8, .data3 0xFF#8, .data4 0xFF#8, .data5 0xFF#8,
      .data6 0xFF#8] ∧ ∃ t, exec (.data6 0xFF#8) (at8 7 0x01#8) = .next t := ⟨by decide, _, rfl⟩
theorem witness_framingFrame :
    Instr.tailBad 0x00#8 ∈ [Instr.hdrAccept, .hdrReject 0x00#8, .cmdAccept, .cmdReject 0x00#8,
      .cksumMatch 0x00#8, .cksumMismatch 0x00#8, .tailOk, .tailBad 0x00#8] ∧
    ∃ t, exec (.tailBad 0x00#8) (at8 9 0) = .next t := ⟨by decide, _, rfl⟩
/-- FeedFrame, with a reading and without; PhaseIsWrittenInThreeWays, ReadingExactlyAtChecksumMatch. -/
theorem witness_feed :
    ∃ t u, exec (.feed 0xE2#8) (at8 8 0xE2#8) = .next t ∧ t.result = .fed (some ⟨0#16, 0#16⟩) ∧
      exec (.feed 0x00#8) (at8 0 0) = .next u ∧ u.result = .fed none := ⟨_, _, rfl, rfl, rfl, rfl⟩
theorem witness_feedFrame_checksum :
    ∃ t, exec (.feed 0x00#8) (at8 0 0) = .next t ∧ (at8 0 0).phase = Phase.awaitHeader ∧
      (0x00#8 : Byte) ≠ 0xAA#8 ∧ (at8 0 0).phase ≠ Phase.data1 ∧ (at8 0 0).phase ≠ Phase.data4 :=
  ⟨_, rfl, by decide, by decide, by decide, by decide⟩
/-- FeedFrame's counter clauses: accepted bytes where a neighbour would count, and a rejected one, which
each clause on the other counter covers. -/
theorem witness_feedFrame_counters :
    ∃ t u v, exec (.feed 0xAA#8) (at8 0 0) = .next t ∧ exec (.feed 0xAB#8) (at8 9 0) = .next u ∧
      exec (.feed 0x01#8) (at8 8 0) = .next v ∧ t.badBytes = 0 ∧ u.badBytes = 0 ∧ v.badBytes = 0 ∧
      t.checksumFailures = 0 ∧ v.checksumFailures = 1 := ⟨_, _, _, rfl, rfl, rfl, rfl, rfl, rfl, rfl, rfl⟩
/-- EmissionsAreTenBytesApart: an emission with exactly nine bytes after it, the shortest way to the next one
(a tail, then a whole frame up to its last payload byte). -/
theorem witness_emissionsApart :
    ∃ t, exec (.feed 0xE2#8) (at8 8 0xE2#8) = .next t ∧ t.result = .fed (some ⟨0#16, 0#16⟩) ∧
      [0xAB#8, 0xAA#8, 0xC0#8, 1#8, 2#8, 3#8, 4#8, 5#8, 6#8].length ≤ 9 := ⟨_, rfl, rfl, by decide⟩
theorem witness_phaseWrites :
    ∃ t u v, exec .reset (at8 4 0) = .next t ∧ exec .idle (at8 4 0) = .next u ∧
      exec (.query 1#1) (at8 4 0) = .next v := ⟨_, _, _, rfl, rfl, rfl⟩
/-- PhaseIsWrittenInThreeWays, a FEED for each clause: the self-loop, the three reverts, the first and the
last advance. -/
theorem witness_phaseClauses :
    (∃ t, exec (.feed 0xAB#8) (at8 0 0) = .next t ∧ decodeSel 0#8 (selWord 0#4 0xAB#8) = some (.hdrReject 0xAB#8)) ∧
    (∃ t, exec (.feed 0xAA#8) (at8 1 0) = .next t ∧ decodeSel 0#8 (selWord 1#4 0xAA#8) = some (.cmdReject 0xAA#8)) ∧
    (∃ t, exec (.feed 0xFF#8) (at8 8 0) = .next t ∧
      decodeSel 0#8 (selWord 8#4 0xFF#8) = some (.cksumMismatch 0xFF#8)) ∧
    (∃ t, exec (.feed 0xAA#8) (at8 9 0) = .next t ∧ decodeSel 0#8 (selWord 9#4 0xAA#8) = some (.tailBad 0xAA#8)) ∧
    (∃ t, exec (.feed 0xAA#8) (at8 0 0) = .next t ∧ decodeSel 0#8 (selWord 0#4 0xAA#8) = some .hdrAccept) ∧
    (∃ t, exec (.feed 0xAB#8) (at8 9 0) = .next t ∧ decodeSel 0#8 (selWord 9#4 0xAB#8) = some .tailOk) :=
  ⟨⟨_, rfl, rfl⟩, ⟨_, rfl, rfl⟩, ⟨_, rfl, rfl⟩, ⟨_, rfl, rfl⟩, ⟨_, rfl, rfl⟩, ⟨_, rfl, rfl⟩⟩
theorem witness_counters :
    ∃ t, exec (.feed 0x00#8) (at8 8 0xE2#8) = .next t ∧ Instr.feed 0x00#8 ≠ .reset := ⟨_, rfl, by decide⟩
theorem witness_sameParsing : (at8 4 0).SameParsing { at8 4 0 with badBytes := 7, counterWidth := 3 } := by
  decide
theorem witness_payloadOrder :
    ∃ t t' rs rs', (at8 2 0).phase = Phase.data1 ∧
      feedAll [1#8, 2#8, 3#8, 4#8, 5#8, 6#8] (at8 2 0) = some (t, rs) ∧
      feedAll [2#8, 1#8, 3#8, 4#8, 5#8, 6#8] (at8 2 0) = some (t', rs') ∧
      List.Perm [1#8, 2#8, 3#8, 4#8, 5#8, 6#8] [2#8, 1#8, 3#8, 4#8, 5#8, 6#8] :=
  ⟨_, _, _, _, rfl, rfl, rfl, List.Perm.swap _ _ _⟩
/-- Both sides of PayloadIsLittleEndianAndSummed's checksum test. -/
theorem witness_payloadSum :
    (0xE2#8).toNat = ((0x7D#8).toNat + (0x00#8).toNat + (0x32#8).toNat + (0x00#8).toNat + (0x11#8).toNat +
      (0x22#8).toNat) % 256 ∧
    (0x00#8).toNat ≠ ((0x7D#8).toNat + (0x00#8).toNat + (0x32#8).toNat + (0x00#8).toNat + (0x11#8).toNat +
      (0x22#8).toNat) % 256 := by decide
/-- The three invariants' steps, from a state in the middle of a frame. -/
theorem witness_invariants :
    ∃ t, ({ at8 3 0x34#8 with pendPm25 := 0x0034#16, input := [feedWord 0x12#8] } : State).Legal ∧
      ({ at8 3 0x34#8 with pendPm25 := 0x0034#16, input := [feedWord 0x12#8] } : State).AssemblyInv ∧
      ({ at8 3 0x34#8 with pendPm25 := 0x0034#16, input := [feedWord 0x12#8] } : State).PulseInv ∧
      step { at8 3 0x34#8 with pendPm25 := 0x0034#16, input := [feedWord 0x12#8] } = .next t :=
  ⟨_, by decide, by decide, by decide, rfl⟩
theorem witness_resetWidth : 1 ≤ 1 ∧ (State.resetAt 1).Legal := by decide
/-- FaultEndsTheRun: the lowest and the highest code, a RESET edge after the FEED, and a QUERY of each
counter and an idle edge before it. -/
theorem witness_faultEnds :
    10 ≤ (at8 10 0).phase.toNat ∧ 10 ≤ (at8 15 0).phase.toNat ∧
    ({ at8 10 0 with input := [feedWord 0x00#8, .port 0b10#2 0x00#8] } : State).input =
      feedWord 0x00#8 :: [.port 0b10#2 0x00#8] ∧
    ({ at8 15 0 with input := [.query 0, .port 0b00#2 0xAA#8, .query 1, feedWord 0xFF#8] } : State).input =
      [.query 0, .port 0b00#2 0xAA#8, .query 1] ++ feedWord 0xFF#8 :: [] ∧
    ∀ w ∈ [HostWord.query 0, .port 0b00#2 0xAA#8, .query 1],
      (∃ c, w = .port 0b00#2 c) ∨ w = .query 0 ∨ w = .query 1 :=
  ⟨by decide, by decide, rfl, rfl, by simp⟩
theorem witness_outValid :
    ∃ t, ({ at8 9 0 with outValid := true, input := [feedWord 0xAB#8] } : State).PulseInv ∧
      ({ at8 9 0 with outValid := true, input := [feedWord 0xAB#8] } : State).outValid = true ∧
      step { at8 9 0 with outValid := true, input := [feedWord 0xAB#8] } = .next t := ⟨_, by decide, rfl, rfl⟩
/-- FrameEndsInThreeWays, where its cases meet: after a matching and after a failing checksum, the tails
`AB` and `AA` (R136's table). -/
theorem witness_frameTails :
    runHas [0xAA#8, 0xC0#8, 1#8, 2#8, 3#8, 4#8, 5#8, 6#8, 0x15#8, 0xAB#8] (at8 0 0)
      (fun t _ => t.phase == 0#4 && t.badBytes == 0 && t.checksumFailures == 0) = true ∧
    runHas [0xAA#8, 0xC0#8, 1#8, 2#8, 3#8, 4#8, 5#8, 6#8, 0x15#8, 0xAA#8] (at8 0 0)
      (fun t _ => t.phase == 0#4 && t.badBytes == 1 && t.checksumFailures == 0) = true ∧
    runHas [0xAA#8, 0xC0#8, 1#8, 2#8, 3#8, 4#8, 5#8, 6#8, 0x16#8, 0xAB#8] (at8 0 0)
      (fun t _ => t.phase == 0#4 && t.badBytes == 1 && t.checksumFailures == 1) = true ∧
    runHas [0xAA#8, 0xC0#8, 1#8, 2#8, 3#8, 4#8, 5#8, 6#8, 0x16#8, 0xAA#8] (at8 0 0)
      (fun t _ => t.phase == 1#4 && t.badBytes == 0 && t.checksumFailures == 1) = true := by decide
/-- FrameEndsInThreeWays: a checksum that matches and one that does not (the statement's own two clauses). -/
theorem witness_frameEnds :
    0x15#8 = frameChecksum 1#8 2#8 3#8 4#8 5#8 6#8 ∧ 0x16#8 ≠ frameChecksum 1#8 2#8 3#8 4#8 5#8 6#8 := by decide
/-- ValidFrameAfterCleanNoiseDecodes and NineCleanBytesResynchronize: the nine bytes of V-L1-6. -/
theorem witness_cleanNoise :
    Phase.Legal (at8 1 0).phase ∧
    [0xC0#8, 1#8, 2#8, 3#8, 4#8, 5#8, 6#8, 0x15#8, 0#8].length = 9 ∧
    ∀ b ∈ [0xC0#8, 1#8, 2#8, 3#8, 4#8, 5#8, 6#8, 0x15#8, 0#8], b ≠ 0xAA#8 := by decide
/-- HeaderSearchReturnsInTime: V-LV-4 and the worst case of R183. -/
theorem witness_headerSearch :
    1 ≤ (at8 9 0).phase.toNat ∧ (at8 9 0).phase.toNat ≤ 9 ∧ [0x00#8].length = 10 - (at8 9 0).phase.toNat ∧
    1 ≤ (at8 1 0).phase.toNat ∧ (List.replicate 9 0xAA#8).length = 10 - (at8 1 0).phase.toNat := by decide
theorem witness_noise :
    (at8 0 0).phase = Phase.awaitHeader ∧ (at8 0 0).badBytes < 2 ^ (at8 0 0).counterWidth ∧
    ∀ b ∈ [0x00#8, 0xFF#8, 0xAB#8, 0xC0#8], b ≠ 0xAA#8 := by decide
/-- FalseStartSwallowsTheHeader: six bytes between, and seven with a matching checksum. -/
theorem witness_falseStart :
    ∃ m rs, (at8 2 0).phase = Phase.data1 ∧ [1#8, 2#8, 3#8, 4#8, 5#8, 6#8].length ≤ 6 ∧
      feedAll [1#8, 2#8, 3#8, 4#8, 5#8, 6#8, 0x15#8] (at8 2 0) = some (m, rs) ∧ m.phase = Phase.awaitTail :=
  ⟨_, _, rfl, by decide, rfl, rfl⟩
theorem witness_portRun :
    Phase.Legal (at8 0 0).phase ∧
    ({ at8 0 0 with input := [(true, 0xAA#8), (false, 0#8)].map edgeWord } : State).input =
      [(true, 0xAA#8), (false, 0#8)].map edgeWord := by decide
theorem witness_hidden :
    (at8 0 0).phase = Phase.awaitHeader ∧ (at8 0 0x5A#8).phase = Phase.awaitHeader ∧
    (at8 0 0).counterWidth = (at8 0 0x5A#8).counterWidth ∧ (at8 0 0).SameCounters (at8 0 0x5A#8) := by decide
/-- HiddenValuesAreUnobservable's two cases: bytes that end in a reading, and bytes that return none. -/
theorem witness_hiddenCases :
    (∃ t rs, feedAll [0xAA#8, 0xC0#8, 1#8, 2#8, 3#8, 4#8, 5#8, 6#8, 0x15#8] (at8 0 0x5A#8) = some (t, rs) ∧
      some ⟨0x0201#16, 0x0403#16⟩ ∈ rs) ∧
    (∃ t, feedAll [0xAA#8] (at8 0 0x5A#8) = some (t, [none])) :=
  ⟨⟨_, _, rfl, by decide⟩, _, rfl⟩
/-- PayloadBeginsOnlyAfterHeaderPair: noise, then the pair. -/
theorem witness_payloadBegins :
    ∃ t rs, (at8 0 0).phase = Phase.awaitHeader ∧ feedAll [0xC0#8, 0xAA#8, 0xC0#8] (at8 0 0) = some (t, rs) ∧
      t.phase = Phase.data1 := ⟨_, _, rfl, rfl, rfl⟩

end Sys2Proof.Tests
end

namespace Sys2Proof.Machine

/-! ## The two fields that no operation writes: the counter width and the host's words (log entries 1, 2) -/

/-- A row keeps both fields where its effect keeps them: returning the FEED's result writes neither. -/
theorem runRow_keeps_width_input {sel : Bool} {r : Option Reading} {e s t : State}
    (h : runRow sel r e = .next t) (hw : e.counterWidth = s.counterWidth) (hi : e.input = s.input) :
    t.counterWidth = s.counterWidth ∧ t.input = s.input := by
  obtain ⟨-, rfl⟩ := runRow_next.mp h
  simp [hw, hi]

theorem execSelRow_keeps_width_input {i : Instr} {s t : State} (h : execSelRow i s = .next t) :
    t.counterWidth = s.counterWidth ∧ t.input = s.input := by
  cases i with
  | illegalPhaseLow | illegalPhaseHigh => exact absurd h raiseIllegalPhase_ne_next
  | reset | feed | idle | query => cases h
  | _ => exact runRow_keeps_width_input h rfl rfl

/-- Words are taken from the host by the fetch alone, so an instruction by itself leaves them, RESET too
(log entry 10). -/
theorem exec_keeps_width_input {i : Instr} {s t : State} (h : exec i s = .next t) :
    t.counterWidth = s.counterWidth ∧ t.input = s.input := by
  cases i with
  | reset | idle | query => cases h; exact ⟨rfl, rfl⟩
  | feed b => exact execSelRow_keeps_width_input ((execFeed_eq b s).symm.trans h)
  | _ =>
    refine execSelRow_keeps_width_input ((execSelRow_eq_exec ?_ ?_ ?_ ?_ s).trans h) <;> nofun

/-- The fetch keeps the width and takes the oldest word; where there is none, the tail is empty as well. -/
theorem fetch_keeps_width_takes_word {s t : State} {i : Instr} (h : fetch s = .ok (i, t)) :
    t.counterWidth = s.counterWidth ∧ t.input = s.input.tail := by
  obtain ⟨hin, -, rfl⟩ | ⟨w, rest, hin, -, rfl⟩ := fetch_ok h
  · simp [hin]
  · simp [hin]

/-- Settles O46: the fetch takes the oldest word, and what it gives to execute writes neither field. -/
theorem stepKeepsWidthAndTakesOneWord : Obligations.StepKeepsWidthAndTakesOneWord := by
  intro s u h
  obtain ⟨i, t, hfetch, hexec⟩ := step_next h
  obtain ⟨hw, hin⟩ := fetch_keeps_width_takes_word hfetch
  obtain ⟨hw', hin'⟩ := exec_keeps_width_input hexec
  exact ⟨hw'.trans hw, hin'.trans hin⟩

end Sys2Proof.Machine

namespace Sys2Proof.Machine

/-! ## The row of each phase (R82), and what a FEED answers -/

section
variable (rc b : Byte)

@[simp] theorem feedRow_awaitHeader :
    feedRow rc Phase.awaitHeader b = if b = header then .hdrAccept else .hdrReject b := rfl
@[simp] theorem feedRow_awaitCommand :
    feedRow rc Phase.awaitCommand b = if b = command then .cmdAccept else .cmdReject b := rfl
@[simp] theorem feedRow_data1 : feedRow rc Phase.data1 b = .data1 b := rfl
@[simp] theorem feedRow_data2 : feedRow rc Phase.data2 b = .data2 b := rfl
@[simp] theorem feedRow_data3 : feedRow rc Phase.data3 b = .data3 b := rfl
@[simp] theorem feedRow_data4 : feedRow rc Phase.data4 b = .data4 b := rfl
@[simp] theorem feedRow_data5 : feedRow rc Phase.data5 b = .data5 b := rfl
@[simp] theorem feedRow_data6 : feedRow rc Phase.data6 b = .data6 b := rfl
@[simp] theorem feedRow_awaitChecksum :
    feedRow rc Phase.awaitChecksum b = if b = rc then .cksumMatch b else .cksumMismatch b := rfl
@[simp] theorem feedRow_awaitTail :
    feedRow rc Phase.awaitTail b = if b = tail then .tailOk else .tailBad b := rfl

end

/-- A legal phase is one of the ten (R22). -/
theorem legalPhase_cases {p : PhaseCode} : Phase.Legal p →
    p = Phase.awaitHeader ∨ p = Phase.awaitCommand ∨ p = Phase.data1 ∨ p = Phase.data2 ∨
    p = Phase.data3 ∨ p = Phase.data4 ∨ p = Phase.data5 ∨ p = Phase.data6 ∨
    p = Phase.awaitChecksum ∨ p = Phase.awaitTail := by
  revert p; decide

/-- In the other six phases an ILLEGAL_PHASE row is selected, and its guard holds (R134). -/
theorem illegalPhase_selects {p : PhaseCode} (rc b : Byte) (h : ¬ Phase.Legal p) :
    (∃ k, feedRow rc p b = .illegalPhaseLow k b ∧ p = 0b101#3 ++ k) ∨
      ∃ k, feedRow rc p b = .illegalPhaseHigh k b ∧ p = 0b11#2 ++ k := by
  rcases phaseCode_cases p with rfl | rfl | rfl | rfl | rfl | rfl | rfl | rfl | rfl | rfl |
    rfl | rfl | rfl | rfl | rfl | rfl
  iterate 10 exact absurd (by decide) h
  · exact .inl ⟨0#1, rfl, rfl⟩
  · exact .inl ⟨1#1, rfl, rfl⟩
  · exact .inr ⟨0#2, rfl, rfl⟩
  · exact .inr ⟨1#2, rfl, rfl⟩
  · exact .inr ⟨2#2, rfl, rfl⟩
  · exact .inr ⟨3#2, rfl, rfl⟩

theorem exec_feed_eq (b : Byte) (s : State) :
    exec (.feed b) s = execSelRow (feedRow s.runningChecksum s.phase b) s :=
  execFeed_eq b s

theorem runRow_of_selected {sel : Bool} (r : Option Reading) (e : State) (h : sel = true) :
    ∃ t, runRow sel r e = .next t :=
  ⟨_, runRow_next.mpr ⟨h, rfl⟩⟩

/-- In a legal phase the selected row's guard holds, whatever the byte (R75). -/
theorem exec_feed_of_legal {s : State} (b : Byte) (h : Phase.Legal s.phase) :
    ∃ t, exec (.feed b) s = .next t := by
  rw [exec_feed_eq]
  obtain hp | hp | hp | hp | hp | hp | hp | hp | hp | hp := legalPhase_cases h <;> rw [hp]
  · rw [feedRow_awaitHeader]
    split <;> exact runRow_of_selected _ _ (by simp [*])
  · rw [feedRow_awaitCommand]
    split <;> exact runRow_of_selected _ _ (by simp [*])
  iterate 6 exact runRow_of_selected _ _ (beq_iff_eq.mpr hp)
  · rw [feedRow_awaitChecksum]
    split <;> exact runRow_of_selected _ _ (by simp [*])
  · rw [feedRow_awaitTail]
    split <;> exact runRow_of_selected _ _ (by simp [*])

theorem exec_feed_of_not_legal {s : State} (b : Byte) (h : ¬ Phase.Legal s.phase) :
    exec (.feed b) s = .fault (.illegalPhase s.phase) := by
  rw [exec_feed_eq]
  obtain ⟨k, hrow, hp⟩ | ⟨k, hrow, hp⟩ := illegalPhase_selects s.runningChecksum b h <;> rw [hrow]
  · exact raiseIllegalPhase_fault.mpr ⟨beq_iff_eq.mpr hp, rfl⟩
  · exact raiseIllegalPhase_fault.mpr ⟨beq_iff_eq.mpr hp, rfl⟩

/-- Only from a legal phase does a FEED answer a next state (R134). -/
theorem legal_of_exec_feed {b : Byte} {s t : State} (h : exec (.feed b) s = .next t) :
    Phase.Legal s.phase := by
  by_contra hp
  rw [exec_feed_of_not_legal b hp] at h
  cases h

/-! ## What a selected row does to the phase and to the counters (R23, R31, R32) -/

/-- Where a row leaves the phase: as it is, back at `AwaitHeader`, or at the successor (R23). -/
def rowPhase (p : PhaseCode) : Instr → PhaseCode
  | .hdrReject _ => p
  | .cmdReject _ | .cksumMismatch _ | .tailBad _ => Phase.awaitHeader
  | _ => Phase.next p

theorem execSelRow_phase {i : Instr} {s t : State} (h : execSelRow i s = .next t) :
    t.phase = rowPhase s.phase i := by
  cases i with
  | illegalPhaseLow | illegalPhaseHigh => exact absurd h raiseIllegalPhase_ne_next
  | reset | feed | idle | query => cases h
  | hdrReject =>
    obtain ⟨-, rfl⟩ := runRow_next.mp h
    rfl
  | _ =>
    obtain ⟨hsel, rfl⟩ := runRow_next.mp h
    simp only [Bool.and_eq_true, beq_iff_eq] at hsel
    simp only [rowPhase, hsel]
    rfl

/-- The counters after a row: one up, modulo 2^W, in the rows of an error class (R31, R32, R151). -/
theorem execSelRow_counters {i : Instr} {s t : State} (h : execSelRow i s = .next t) :
    (t.badBytes = if rowEvent i = some .badHeader ∨ rowEvent i = some .badCommand ∨
        rowEvent i = some .badTail then incW s.counterWidth s.badBytes else s.badBytes) ∧
    (t.checksumFailures = if rowEvent i = some .checksum then
        incW s.counterWidth s.checksumFailures else s.checksumFailures) := by
  cases i with
  | illegalPhaseLow | illegalPhaseHigh => exact absurd h raiseIllegalPhase_ne_next
  | reset | feed | idle | query => cases h
  | _ =>
    obtain ⟨-, rfl⟩ := runRow_next.mp h
    exact ⟨rfl, rfl⟩

/-- Settles O34: a FEED counts as the row it selects, a row by its error class, and no other
instruction but RESET counts. -/
theorem countersCountOnlyTheirErrors : Obligations.CountersCountOnlyTheirErrors := by
  intro s t i h hreset
  cases i with
  | reset => exact absurd rfl hreset
  | idle | query => cases h; exact ⟨rfl, rfl⟩
  | feed b => exact execSelRow_counters (exec_feed_eq b s ▸ h)
  | _ => exact execSelRow_counters h

/-! ## The phase (R22, R23) -/

/-- A row that does not advance the phase carries the byte that was fed. -/
theorem feedRow_rejects_or_advances {p : PhaseCode} (rc b : Byte) (h : Phase.Legal p) :
    feedRow rc p b ∈ [Instr.hdrReject b, .cmdReject b, .cksumMismatch b, .tailBad b] ∨
      rowPhase p (feedRow rc p b) = Phase.next p := by
  rcases legalPhase_cases h with rfl | rfl | rfl | rfl | rfl | rfl | rfl | rfl | rfl | rfl
  · rw [feedRow_awaitHeader]
    split <;> simp [rowPhase]
  · rw [feedRow_awaitCommand]
    split <;> simp [rowPhase]
  iterate 6 exact .inr rfl
  · rw [feedRow_awaitChecksum]
    split <;> simp [rowPhase]
  · rw [feedRow_awaitTail]
    split <;> simp [rowPhase]

theorem next_ne_self (p : PhaseCode) : Phase.next p ≠ p := by
  revert p; decide

theorem next_legal {p : PhaseCode} : Phase.Legal p → Phase.Legal (Phase.next p) := by
  revert p; decide

/-- Settles O33: the phase after a FEED is that of its row, RESET's is R40's, and IDLE and QUERY write none. -/
theorem phaseIsWrittenInThreeWays : Obligations.PhaseIsWrittenInThreeWays := by
  refine ⟨fun s t b h => ?_, ?_, ?_, ?_⟩
  · have hphase := execSelRow_phase (exec_feed_eq b s ▸ h)
    refine ⟨_, decodeSel_selWord _ _ _, fun hrow => ?_, fun hrow => ?_, fun hrow => ?_⟩
    · rw [hphase, hrow]; rfl
    · obtain hrow | hrow | hrow := hrow <;> rw [hphase, hrow] <;> rfl
    · rw [hphase, (feedRow_rejects_or_advances _ _ (legal_of_exec_feed h)).resolve_left hrow]
      exact ⟨rfl, next_ne_self _⟩
  · rintro s t ⟨⟩
    rfl
  · rintro s t ⟨⟩
    rfl
  · rintro k s t ⟨⟩
    rfl

/-! ## What every step keeps -/

theorem decodePort_ok {pins : BitVec 2} {b : Byte} {i : Instr} (h : decodePort pins b = some i) :
    i = .reset ∨ i = .feed b ∨ i = .idle := by
  obtain ⟨row, hrow, rfl⟩ := Option.map_eq_some_iff.mp h
  have hmem := List.mem_of_find?_eq_some hrow
  simp only [portRows, List.mem_cons, List.not_mem_nil, or_false] at hmem
  obtain rfl | rfl | rfl := hmem <;> simp

/-- A host word names no selector row: it is a port operation or a QUERY (R83). -/
theorem decode_ok {w : HostWord} {i : Instr} (h : decode w = .ok i) :
    i = .reset ∨ (∃ b, i = .feed b) ∨ i = .idle ∨ ∃ k, i = .query k := by
  unfold decode at h
  split at h
  · split at h
    · next hport =>
      cases h
      obtain rfl | rfl | rfl := decodePort_ok hport <;> simp
    · cases h
  · split at h
    · next hquery =>
      cases h
      obtain ⟨-, rfl⟩ : _ ∧ _ = _ := by simpa [decodeQuery] using hquery
      simp
    · cases h
  · cases h

/-- A predicate that does not read the host's words is kept by every step if RESET, FEED, IDLE and QUERY
keep it. -/
theorem step_keeps {P : State → Prop} (hinput : ∀ s ws, P s → P { s with input := ws })
    (hreset : ∀ s, P s → P s.takeReset)
    (hfeed : ∀ b s t, P s → exec (.feed b) s = .next t → P t)
    (hidle : ∀ s, P s → P { s with outValid := false })
    (hquery : ∀ k s, P s → P { s with result := .count (readCounter k s) })
    {s u : State} (hs : P s) (h : step s = .next u) : P u := by
  obtain ⟨i, t, hfetch, hexec⟩ := step_next h
  obtain ⟨-, rfl, rfl⟩ | ⟨w, rest, -, hw, rfl⟩ := fetch_ok hfetch
  · cases hexec
    exact hidle _ hs
  · have ht := hinput s rest hs
    obtain rfl | ⟨b, rfl⟩ | rfl | ⟨k, rfl⟩ := decode_ok hw
    · cases hexec
      exact hreset _ ht
    · exact hfeed b _ _ ht hexec
    · cases hexec
      exact hidle _ ht
    · cases hexec
      exact hquery k _ ht

/-! ### Legality -/

theorem rowPhase_legal {p : PhaseCode} (i : Instr) (h : Phase.Legal p) : Phase.Legal (rowPhase p i) := by
  cases i with
  | hdrReject => exact h
  | cmdReject | cksumMismatch | tailBad => exact Nat.zero_le 9
  | _ => exact next_legal h

/-- A counter that keeps its value or counts one up stays in its W bits (R33). -/
theorem ite_incW_lt {w c : Nat} (counts : Prop) [Decidable counts] (h : c < 2 ^ w) :
    (if counts then incW w c else c) < 2 ^ w := by
  split
  · exact incW_lt w c
  · exact h

theorem exec_feed_keeps_legalPhase {b : Byte} {s t : State} (h : exec (.feed b) s = .next t) :
    Phase.Legal t.phase := by
  rw [execSelRow_phase (exec_feed_eq b s ▸ h)]
  exact rowPhase_legal _ (legal_of_exec_feed h)

theorem exec_feed_keeps_legal {b : Byte} {s t : State} (hs : s.Legal) (h : exec (.feed b) s = .next t) :
    t.Legal := by
  obtain ⟨-, hw, hbad, hck⟩ := hs
  obtain ⟨hwidth, -⟩ := exec_keeps_width_input h
  obtain ⟨hbad', hck'⟩ := execSelRow_counters (exec_feed_eq b s ▸ h)
  rw [State.Legal, hwidth, hbad', hck']
  exact ⟨exec_feed_keeps_legalPhase h, hw, ite_incW_lt _ hbad, ite_incW_lt _ hck⟩

theorem takeReset_legal (s : State) (hw : 1 ≤ s.counterWidth) : s.takeReset.Legal :=
  ⟨Nat.zero_le 9, hw, Nat.two_pow_pos _, Nat.two_pow_pos _⟩

/-- Settles O39: a FEED's row leaves a legal phase and counts within W bits, RESET clears, and IDLE, QUERY
and the fetch write none of it. -/
theorem stepKeepsLegalStates : Obligations.StepKeepsLegalStates :=
  fun _ _ hs h => step_keeps (P := State.Legal) (fun _ _ hs => hs) (fun s hs => takeReset_legal s hs.2.1)
    (fun _ _ _ => exec_feed_keeps_legal) (fun _ hs => hs) (fun _ _ hs => hs) hs h

/-! ### The checksum invariant: what it says in each phase (R28, R29) -/

section
variable {s : State}

/-- Before a frame and from the fifth data byte on, the invariant claims nothing. -/
theorem assemblyInv_of_unclaimed (h : s.phase = Phase.awaitHeader ∨ s.phase = Phase.data6 ∨
    s.phase = Phase.awaitChecksum ∨ s.phase = Phase.awaitTail) : s.AssemblyInv := by
  obtain hp | hp | hp | hp := h <;> simp +decide [State.AssemblyInv, hp]

theorem assemblyInv_iff_of_no_data (h : s.phase = Phase.awaitCommand ∨ s.phase = Phase.data1) :
    s.AssemblyInv ↔ s.runningChecksum = 0x00#8 := by
  obtain hp | hp := h <;> simp +decide [State.AssemblyInv, hp]

theorem assemblyInv_iff_of_data2 (hp : s.phase = Phase.data2) :
    s.AssemblyInv ↔ highByte s.pendPm25 = 0x00#8 ∧ s.runningChecksum = lowByte s.pendPm25 := by
  simp +decide [State.AssemblyInv, hp]

theorem assemblyInv_iff_of_data3 (hp : s.phase = Phase.data3) :
    s.AssemblyInv ↔ s.runningChecksum = lowByte s.pendPm25 + highByte s.pendPm25 := by
  simp +decide [State.AssemblyInv, hp]

theorem assemblyInv_iff_of_data4 (hp : s.phase = Phase.data4) :
    s.AssemblyInv ↔ highByte s.pendPm10 = 0x00#8 ∧
      s.runningChecksum = lowByte s.pendPm25 + highByte s.pendPm25 + lowByte s.pendPm10 := by
  simp +decide [State.AssemblyInv, hp]

theorem assemblyInv_iff_of_data5 (hp : s.phase = Phase.data5) :
    s.AssemblyInv ↔ s.runningChecksum =
      lowByte s.pendPm25 + highByte s.pendPm25 + lowByte s.pendPm10 + highByte s.pendPm10 := by
  simp +decide [State.AssemblyInv, hp]

end

theorem exec_feed_keeps_assemblyInv {b : Byte} {s t : State} (hs : s.AssemblyInv)
    (h : exec (.feed b) s = .next t) : t.AssemblyInv := by
  obtain ⟨-, -, rfl⟩ | ⟨hp, -, rfl⟩ | ⟨hp, -, rfl⟩ | ⟨-, -, rfl⟩ | ⟨-, rfl⟩ | ⟨hp, rfl⟩ | ⟨hp, rfl⟩ |
    ⟨hp, rfl⟩ | ⟨-, rfl⟩ | ⟨-, rfl⟩ | ⟨-, -, rfl⟩ | ⟨-, -, rfl⟩ | ⟨-, -, rfl⟩ | ⟨-, -, rfl⟩ :=
    exec_feed_next h
  · -- HDR_ACCEPT clears the sum
    exact (assemblyInv_iff_of_no_data (.inl rfl)).mpr rfl
  · exact assemblyInv_of_unclaimed (.inl hp)
  · -- CMD_ACCEPT keeps it clear
    exact (assemblyInv_iff_of_no_data (.inr rfl)).mpr ((assemblyInv_iff_of_no_data (.inl hp)).mp hs)
  · exact assemblyInv_of_unclaimed (.inl rfl)
  · -- DATA1 starts the sum at the low byte
    exact (assemblyInv_iff_of_data2 rfl).mpr ⟨highByte_zext16 b, (lowByte_zext16 b).symm⟩
  · -- DATA2 adds the high byte and keeps the low one
    obtain ⟨-, hsum⟩ := (assemblyInv_iff_of_data2 hp).mp hs
    rw [assemblyInv_iff_of_data3 rfl]
    simp [add8, hsum, lowByte_withHighByte, highByte_withHighByte]
  · -- DATA3 adds the low byte of a field whose high byte it clears
    have hsum := (assemblyInv_iff_of_data3 hp).mp hs
    rw [assemblyInv_iff_of_data4 rfl]
    simp [add8, hsum, lowByte_zext16, highByte_zext16]
  · -- DATA4 adds the high byte and keeps the low one
    obtain ⟨-, hsum⟩ := (assemblyInv_iff_of_data4 hp).mp hs
    rw [assemblyInv_iff_of_data5 rfl]
    simp [add8, hsum, lowByte_withHighByte, highByte_withHighByte]
  · exact assemblyInv_of_unclaimed (.inr (.inl rfl))
  · exact assemblyInv_of_unclaimed (.inr (.inr (.inl rfl)))
  · exact assemblyInv_of_unclaimed (.inr (.inr (.inr rfl)))
  iterate 3 exact assemblyInv_of_unclaimed (.inl rfl)

/-- Settles O40: a FEED adds the byte it assembles, RESET goes where nothing is claimed, and IDLE, QUERY
and the fetch write none of it. -/
theorem stepKeepsChecksumAssembly : Obligations.StepKeepsChecksumAssembly :=
  fun _ _ hs h => step_keeps (P := State.AssemblyInv) (fun _ _ hs => hs)
    (fun _ _ => assemblyInv_of_unclaimed (.inl rfl)) (fun _ _ _ => exec_feed_keeps_assemblyInv)
    (fun _ hs => hs) (fun _ _ hs => hs) hs h

/-! ### Reset (R40) -/

theorem resetAt_meets_invariants {w : Nat} (hw : 1 ≤ w) :
    (State.resetAt w).Legal ∧ (State.resetAt w).AssemblyInv ∧ (State.resetAt w).PulseInv :=
  ⟨takeReset_legal (State.resetAt w) hw, assemblyInv_of_unclaimed (.inl rfl), nofun⟩

/-- Settles O42: at every width the reset state awaits a header with its counters and `out_valid` clear. -/
theorem resetMeetsTheInvariants : Obligations.ResetMeetsTheInvariants :=
  ⟨fun _ => resetAt_meets_invariants, resetAt_meets_invariants (by decide)⟩

/-! ## What a FEED leaves unchanged -/

/-- The output registers, read as the reading they hold (R37). -/
def State.outputs (s : State) : Reading := { pm25 := s.outPm25, pm10 := s.outPm10 }

/-- The output port after a FEED shows the reading it returned; without one the registers keep theirs
(R100, decision D11). -/
theorem exec_feed_outputs {b : Byte} {s t : State} (h : exec (.feed b) s = .next t) :
    t.result = .fed t.fedResult ∧ t.outValid = t.fedResult.isSome ∧
      t.outputs = t.fedResult.getD s.outputs := by
  rw [exec_feed_eq] at h
  generalize feedRow s.runningChecksum s.phase b = row at h
  cases row with
  | illegalPhaseLow | illegalPhaseHigh => exact absurd h raiseIllegalPhase_ne_next
  | reset | feed | idle | query => cases h
  | _ =>
    obtain ⟨-, rfl⟩ := runRow_next.mp h
    exact ⟨rfl, rfl, rfl⟩

/-- Settles O32: the words and the width by the rule of every instruction, the outputs by the returned
result, and the other registers row by row. -/
theorem feedFrame : Obligations.FeedFrame := by
  intro b s t h
  obtain ⟨hwidth, hinput⟩ := exec_keeps_width_input h
  refine ⟨hwidth, hinput, fun hnone => ?_, ?_⟩
  · obtain ⟨hresult, hvalid, houtputs⟩ := exec_feed_outputs h
    obtain hnone : t.fedResult = none := by simpa [hresult] using hnone
    simpa [hnone, State.outputs] using And.intro hvalid houtputs
  · obtain ⟨hp, hb, rfl⟩ | ⟨hp, hb, rfl⟩ | ⟨hp, hb, rfl⟩ | ⟨hp, hb, rfl⟩ | ⟨hp, rfl⟩ | ⟨hp, rfl⟩ |
      ⟨hp, rfl⟩ | ⟨hp, rfl⟩ | ⟨hp, rfl⟩ | ⟨hp, rfl⟩ | ⟨hp, hb, rfl⟩ | ⟨hp, hb, rfl⟩ | ⟨hp, hb, rfl⟩ |
      ⟨hp, hb, rfl⟩ := exec_feed_next h
    -- a register the row writes is one whose clause names another phase or byte
    all_goals simp_all +decide [header, command, tail]

/-! ## Parsing reads no counter (R34) -/

/-- The guard, the result and the parsing registers of a row's effect are read off the parsing registers. -/
theorem execSelRow_sameParsing {i : Instr} {s s' t : State} (hs : s.SameParsing s')
    (h : execSelRow i s = .next t) :
    ∃ t', execSelRow i s' = .next t' ∧ t.SameParsing t' ∧ t.result = t'.result := by
  cases s
  cases s'
  obtain ⟨rfl, rfl, rfl, rfl⟩ := hs
  cases i with
  | illegalPhaseLow | illegalPhaseHigh => exact absurd h raiseIllegalPhase_ne_next
  | reset | feed | idle | query => cases h
  | _ =>
    obtain ⟨hsel, rfl⟩ := runRow_next.mp h
    exact ⟨_, runRow_next.mpr ⟨hsel, rfl⟩, ⟨rfl, rfl, rfl, rfl⟩, rfl⟩

/-- Settles O35: in a legal phase both states run the same row, in an illegal one both raise its code. -/
theorem countersDoNotAffectParsing : Obligations.CountersDoNotAffectParsing := by
  intro s s' b hs
  have ⟨hphase, _, _, hsum⟩ := hs
  by_cases hlegal : Phase.Legal s.phase
  · obtain ⟨t, ht⟩ := exec_feed_of_legal b hlegal
    obtain ⟨t', ht', hsame⟩ := execSelRow_sameParsing hs (exec_feed_eq b s ▸ ht)
    rw [hphase, hsum, ← exec_feed_eq] at ht'
    exact .inl ⟨t, t', ht, ht', hsame⟩
  · refine .inr ⟨_, exec_feed_of_not_legal b hlegal, ?_⟩
    rw [hphase] at hlegal ⊢
    exact exec_feed_of_not_legal b hlegal

/-! ## The tagged decoder simulates the machine (R30) -/

/-- The data that the phase gives a meaning to; what the other registers hold is forgotten. -/
def State.tag (s : State) : TaggedPhase :=
  if s.phase = Phase.awaitCommand then .awaitCommand
  else if s.phase = Phase.data1 then .data1
  else if s.phase = Phase.data2 then .data2 (lowByte s.pendPm25) s.runningChecksum
  else if s.phase = Phase.data3 then .data3 s.pendPm25 s.runningChecksum
  else if s.phase = Phase.data4 then .data4 s.pendPm25 (lowByte s.pendPm10) s.runningChecksum
  else if s.phase = Phase.data5 then .data5 ⟨s.pendPm25, s.pendPm10⟩ s.runningChecksum
  else if s.phase = Phase.data6 then .data6 ⟨s.pendPm25, s.pendPm10⟩ s.runningChecksum
  else if s.phase = Phase.awaitChecksum then .awaitChecksum ⟨s.pendPm25, s.pendPm10⟩ s.runningChecksum
  else if s.phase = Phase.awaitTail then .awaitTail
  else .awaitHeader

/-- The tagged decoder that a state of the machine stands for. -/
def State.toTagged (s : State) : Tagged :=
  { phase := s.tag, badBytes := s.badBytes, checksumFailures := s.checksumFailures }

/-- The commuting square: the tagged FEED goes to what the machine's next state stands for, with the same
result. -/
theorem tagged_feed_toTagged {b : Byte} {s t : State} (h : exec (.feed b) s = .next t) :
    Tagged.feed s.counterWidth s.toTagged b = (t.toTagged, t.fedResult) := by
  obtain ⟨hp, hb, rfl⟩ | ⟨hp, hb, rfl⟩ | ⟨hp, hb, rfl⟩ | ⟨hp, hb, rfl⟩ | ⟨hp, rfl⟩ | ⟨hp, rfl⟩ |
    ⟨hp, rfl⟩ | ⟨hp, rfl⟩ | ⟨hp, rfl⟩ | ⟨hp, rfl⟩ | ⟨hp, hb, rfl⟩ | ⟨hp, hb, rfl⟩ | ⟨hp, hb, rfl⟩ |
    ⟨hp, hb, rfl⟩ := exec_feed_next h
  -- in each row both sides compute; DATA1 to DATA4 turn on how a field is made of its bytes (R51)
  all_goals simp_all +decide [Tagged.feed, State.toTagged, State.tag, State.fedResult, Tagged.goto,
    Tagged.reject, Tagged.drop, header, command, tail, lowByte_zext16, withHighByte_eq_append, add8, incW]

/-- From a legal phase every burst of FEEDs runs through, and the tagged decoder runs alongside. -/
theorem feedAll_toTagged (bs : List Byte) {s : State} (hs : Phase.Legal s.phase) :
    ∃ t rs, feedAll bs s = some (t, rs) ∧
      Tagged.feedAll s.counterWidth bs s.toTagged = (t.toTagged, rs) := by
  induction bs generalizing s with
  | nil => exact ⟨s, [], rfl, rfl⟩
  | cons b bs ih =>
    obtain ⟨m, hm⟩ := exec_feed_of_legal b hs
    obtain ⟨t, rs, hrun, htagged⟩ := ih (exec_feed_keeps_legalPhase hm)
    obtain ⟨hwidth, -⟩ := exec_keeps_width_input hm
    rw [hwidth] at htagged
    refine ⟨t, m.fedResult :: rs, ?_, ?_⟩
    · rw [feedAll_cons_of_next bs hm, hrun]
      rfl
    · simp only [Tagged.feedAll, tagged_feed_toTagged hm, htagged]

/-- Settles O56: a session starts in the state that `Tagged.start` stands for. -/
theorem taggedVariantIsEquivalent : Obligations.TaggedVariantIsEquivalent := by
  intro w bs
  obtain ⟨t, rs, hrun, htagged⟩ := feedAll_toTagged bs (s := State.resetAt w) (Nat.zero_le 9)
  have hstart : Tagged.feedAll w bs Tagged.start = (t.toTagged, rs) := htagged
  exact ⟨t, rs, hrun, by rw [hstart], by rw [hstart]; rfl, by rw [hstart]; rfl⟩

/-! ## What is held while the header is searched for (R29, R100) -/

theorem toTagged_eq_of_awaitHeader {s s' : State} (hs : s.phase = Phase.awaitHeader)
    (hs' : s'.phase = Phase.awaitHeader) (hcounters : s.SameCounters s') : s.toTagged = s'.toTagged := by
  obtain ⟨hbad, hck⟩ := hcounters
  simp +decide [State.toTagged, State.tag, hs, hs', hbad, hck]

/-- A burst that ran to its end ran its first FEED. -/
theorem feedAll_cons_eq_some {b : Byte} {bs : List Byte} {s t : State} {rs : List (Option Reading)}
    (h : feedAll (b :: bs) s = some (t, rs)) :
    ∃ m ms, exec (.feed b) s = .next m ∧ feedAll bs m = some (t, ms) ∧ rs = m.fedResult :: ms := by
  simp only [feedAll] at h
  split at h
  · next m hm =>
    obtain ⟨⟨t', ms⟩, hrun, heq⟩ := Option.map_eq_some_iff.mp h
    cases heq
    exact ⟨m, ms, hm, hrun, rfl⟩
  · cases h
  · cases h

/-- What each FEED updates from the result it returns, a burst updates from its results in order. -/
theorem feedAll_foldl {α : Type} {f : State → α} {g : α → Option Reading → α}
    (hstep : ∀ b s t, exec (.feed b) s = .next t → f t = g (f s) t.fedResult) {bs : List Byte}
    {s t : State} {rs : List (Option Reading)} (h : feedAll bs s = some (t, rs)) :
    f t = rs.foldl g (f s) := by
  induction bs generalizing s rs with
  | nil => cases h; rfl
  | cons b bs ih =>
    obtain ⟨m, ms, hm, hrun, rfl⟩ := feedAll_cons_eq_some h
    rw [ih hrun, hstep b s m hm, List.foldl_cons]

/-- An output register keeps what it holds until a reading is returned (R100, decision D11). -/
def holdReading (held : Reading) (r : Option Reading) : Reading := r.getD held

theorem foldl_holdReading_of_reading {rs : List (Option Reading)} (h : ∃ r, some r ∈ rs) (x y : Reading) :
    rs.foldl holdReading x = rs.foldl holdReading y := by
  induction rs generalizing x y with
  | nil => simp at h
  | cons r rs ih =>
    cases r with
    | some r => rfl
    | none => exact ih (by simpa using h) x y

theorem foldl_holdReading_of_no_reading {rs : List (Option Reading)} (h : ∀ r, some r ∉ rs)
    (x : Reading) : rs.foldl holdReading x = x := by
  induction rs with
  | nil => rfl
  | cons r rs ih =>
    cases r with
    | some r => exact absurd List.mem_cons_self (h r)
    | none => exact ih fun r hr => h r (List.mem_cons_of_mem _ hr)

theorem feedAll_outputs {bs : List Byte} {s t : State} {rs : List (Option Reading)}
    (h : feedAll bs s = some (t, rs)) : t.outputs = rs.foldl holdReading s.outputs :=
  feedAll_foldl (g := holdReading) (fun _ _ _ hfeed => (exec_feed_outputs hfeed).2.2) h

/-- After at least one FEED `out_valid` depends on the results alone. -/
theorem feedAll_outValid {bs : List Byte} {s t : State} {rs : List (Option Reading)} (hne : bs ≠ [])
    (h : feedAll bs s = some (t, rs)) : t.outValid = rs.foldl (fun _ r => r.isSome) false := by
  rw [feedAll_foldl (f := State.outValid) (g := fun _ r => r.isSome)
    (fun _ _ _ hfeed => (exec_feed_outputs hfeed).2.1) h]
  obtain ⟨b, bs, rfl⟩ := List.exists_cons_of_ne_nil hne
  obtain ⟨m, ms, -, -, rfl⟩ := feedAll_cons_eq_some h
  rfl

theorem outputs_eq_iff {s t : State} :
    s.outputs = t.outputs ↔ s.outPm25 = t.outPm25 ∧ s.outPm10 = t.outPm10 :=
  Reading.mk.injEq .. ▸ Iff.rfl

/-- Settles O57: both states stand for one tagged decoder, which gives the results and the counters, and the
output port is a function of the results and of what it held. -/
theorem hiddenValuesAreUnobservable : Obligations.HiddenValuesAreUnobservable := by
  intro s s' bs hs hs' hwidth hcounters
  obtain ⟨t, rs, hrun, htagged⟩ := feedAll_toTagged bs (s := s) (hs ▸ Nat.zero_le 9)
  obtain ⟨t', rs', hrun', htagged'⟩ := feedAll_toTagged bs (s := s') (hs' ▸ Nat.zero_le 9)
  rw [hwidth, toTagged_eq_of_awaitHeader hs hs' hcounters, htagged'] at htagged
  obtain ⟨hdecoder, rfl⟩ := Prod.mk.inj htagged
  refine ⟨t, t', rs', hrun, hrun', ⟨?_, ?_⟩, fun hne => ?_, fun hread => ?_, fun hnone => ?_⟩
  · exact congrArg Tagged.badBytes hdecoder.symm
  · exact congrArg Tagged.checksumFailures hdecoder.symm
  · rw [feedAll_outValid hne hrun, feedAll_outValid hne hrun']
  · rw [← outputs_eq_iff, feedAll_outputs hrun, feedAll_outputs hrun']
    exact foldl_holdReading_of_reading hread _ _
  · have ht := (feedAll_outputs hrun).trans (foldl_holdReading_of_no_reading hnone _)
    have ht' := (feedAll_outputs hrun').trans (foldl_holdReading_of_no_reading hnone _)
    obtain ⟨h25, h10⟩ := outputs_eq_iff.mp ht
    exact ⟨h25, h10, outputs_eq_iff.mp ht'⟩

end Sys2Proof.Machine

namespace Sys2Proof.Machine

/-! ## The payload and its checksum (R51, R72) -/

/-- The checksum of a payload is its sum in the naturals, modulo 256 (R72). -/
theorem frameChecksum_toNat (b2 b3 b4 b5 b6 b7 : Byte) :
    (frameChecksum b2 b3 b4 b5 b6 b7).toNat =
      (b2.toNat + b3.toNat + b4.toNat + b5.toNat + b6.toNat + b7.toNat) % 256 := by
  simp [frameChecksum, BitVec.toNat_add]

/-- A field assembled from its two bytes by shifting is the two side by side, the high byte first (R51). -/
theorem setWidth_or_shiftLeft_eq_append (lo hi : Byte) :
    lo.setWidth 16 ||| (hi.setWidth 16 <<< 8) = hi ++ lo := by
  have h := withHighByte_eq_append (zext16 lo) hi
  rwa [withHighByte, lowByte_zext16] at h

theorem toTagged_of_data1 {s : State} (hs : s.phase = Phase.data1) :
    s.toTagged = ⟨.data1, s.badBytes, s.checksumFailures⟩ := by
  simp +decide [State.toTagged, State.tag, hs]

/-- Six payload bytes return nothing, and a seventh returns the reading where it is their checksum. -/
theorem tagged_feedAll_payload (w bad failures : Nat) (b2 b3 b4 b5 b6 b7 c : Byte) :
    (Tagged.feedAll w [b2, b3, b4, b5, b6, b7, c] ⟨.data1, bad, failures⟩).2 =
      [none, none, none, none, none, none,
        if c = frameChecksum b2 b3 b4 b5 b6 b7 then some ⟨b3 ++ b2, b5 ++ b4⟩ else none] := by
  by_cases hc : c = b2 + b3 + b4 + b5 + b6 + b7 <;>
    simp [Tagged.feedAll, Tagged.feed, Tagged.goto, frameChecksum, hc]

/-- Settles O37: from `Data1` the machine returns what the tagged decoder returns, whose phase carries the
bytes and their sum. -/
theorem payloadIsLittleEndianAndSummed : Obligations.PayloadIsLittleEndianAndSummed := by
  intro s b2 b3 b4 b5 b6 b7 c hs
  have hlegal : Phase.Legal s.phase := hs ▸ by decide
  obtain ⟨t, rs, hrun, htagged⟩ := feedAll_toTagged [b2, b3, b4, b5, b6, b7, c] hlegal
  rw [toTagged_of_data1 hs] at htagged
  have hrs := tagged_feedAll_payload s.counterWidth s.badBytes s.checksumFailures b2 b3 b4 b5 b6 b7 c
  simp only [htagged] at hrs
  simp only [← frameChecksum_toNat, ne_eq, BitVec.toNat_inj, setWidth_or_shiftLeft_eq_append]
  exact ⟨t, rs, hrun, fun hc => by rw [hrs, if_pos hc], fun hc => by rw [hrs, if_neg hc]⟩

/-! ## FEEDs read the decoder fields alone, and a QUERY writes none of them (R56, R60) -/

/-- From the same decoder fields a FEED returns the same result and leaves the same decoder fields. -/
theorem exec_feed_sameDecoder {b : Byte} {s s' t : State} (hs : s.SameDecoder s')
    (h : exec (.feed b) s = .next t) :
    ∃ t', exec (.feed b) s' = .next t' ∧ t.SameDecoder t' ∧ t.fedResult = t'.fedResult := by
  obtain ⟨hphase, h25, h10, hsum, hbad, hfail, hwidth⟩ := hs
  have hrow := exec_feed_eq b s ▸ h
  obtain ⟨t', hrow', ⟨hphase', h25', h10', hsum'⟩, hresult⟩ :=
    execSelRow_sameParsing ⟨hphase, h25, h10, hsum⟩ hrow
  have h' : exec (.feed b) s' = .next t' := by rwa [exec_feed_eq, ← hphase, ← hsum]
  obtain ⟨hbadt, hfailt⟩ := execSelRow_counters hrow
  obtain ⟨hbadt', hfailt'⟩ := execSelRow_counters hrow'
  refine ⟨t', h', ⟨hphase', h25', h10', hsum', ?_, ?_, ?_⟩, ?_⟩
  · rw [hbadt, hbadt', hbad, hwidth]
  · rw [hfailt, hfailt', hfail, hwidth]
  · rw [(exec_keeps_width_input h).1, (exec_keeps_width_input h').1, hwidth]
  · rw [State.fedResult, State.fedResult, hresult]

/-- From the same decoder fields a burst returns the same results and leaves the same decoder fields. -/
theorem feedAll_sameDecoder {bs : List Byte} {s s' t : State} {rs : List (Option Reading)}
    (hs : s.SameDecoder s') (h : feedAll bs s = some (t, rs)) :
    ∃ t', feedAll bs s' = some (t', rs) ∧ t.SameDecoder t' := by
  induction bs generalizing s s' rs with
  | nil =>
    cases h
    exact ⟨s', rfl, hs⟩
  | cons b bs ih =>
    obtain ⟨m, ms, hm, hrun, rfl⟩ := feedAll_cons_eq_some h
    obtain ⟨m', hm', hsame, hfed⟩ := exec_feed_sameDecoder hs hm
    obtain ⟨t', hrun', ht'⟩ := ih hsame hrun
    refine ⟨t', ?_, ht'⟩
    rw [feedAll_cons_of_next bs hm', hrun', hfed]
    rfl

/-- A QUERY returns the count its index names, and writes no decoder field (R56, R93). -/
theorem exec_query_next {k : BitVec 1} {s q : State} (h : exec (.query k) s = .next q) :
    q.result = .count (readCounter k s) ∧ q.SameDecoder s := by
  cases h
  exact ⟨rfl, rfl, rfl, rfl, rfl, rfl, rfl, rfl⟩

/-- Settles O58: a QUERY leaves the decoder fields, so the FEEDs after it start from the fields they would
have started from without it. -/
theorem queryBetweenFeedsIsTransparent : Obligations.QueryBetweenFeedsIsTransparent := by
  intro s k bs hlegal
  obtain ⟨q, hq⟩ : ∃ q, exec (.query k) s = .next q := ⟨_, rfl⟩
  obtain ⟨hcount, hsame⟩ := exec_query_next hq
  obtain ⟨t, rs, hrun, -⟩ := feedAll_toTagged bs (s := q) (hsame.1 ▸ hlegal)
  obtain ⟨t', hrun', ht⟩ := feedAll_sameDecoder hsame hrun
  exact ⟨q, hq, hcount, t, t', rs, hrun, hrun', ht⟩

end Sys2Proof.Machine

namespace Sys2Proof.Machine

/-! ## Decode and encode (R73 to R75, R83) -/

/-- The row of a phase and a byte encodes to their selector word, is well formed, and meets its condition:
where a row is "by priority" the row above it was not selected (R74). -/
theorem feedRow_encodes_back (rc : Byte) (p : PhaseCode) (b : Byte) :
    encode (feedRow rc p b) = .sel12 (selWord p b) ∧ (feedRow rc p b).wellFormed = true ∧
      (feedRow rc p b).conditionHolds rc = true := by
  by_cases hp : Phase.Legal p
  · obtain rfl | rfl | rfl | rfl | rfl | rfl | rfl | rfl | rfl | rfl := legalPhase_cases hp
    · rw [feedRow_awaitHeader]
      split
      · subst b; exact ⟨rfl, rfl, rfl⟩
      · exact ⟨rfl, bne_iff_ne.mpr ‹_›, rfl⟩
    · rw [feedRow_awaitCommand]
      split
      · subst b; exact ⟨rfl, rfl, rfl⟩
      · exact ⟨rfl, bne_iff_ne.mpr ‹_›, rfl⟩
    iterate 6 exact ⟨rfl, rfl, rfl⟩
    · rw [feedRow_awaitChecksum]
      split
      · exact ⟨rfl, rfl, beq_iff_eq.mpr ‹_›⟩
      · exact ⟨rfl, rfl, bne_iff_ne.mpr ‹_›⟩
    · rw [feedRow_awaitTail]
      split
      · subst b; exact ⟨rfl, rfl, rfl⟩
      · exact ⟨rfl, bne_iff_ne.mpr ‹_›, rfl⟩
  · obtain ⟨k, hrow, rfl⟩ | ⟨k, hrow, rfl⟩ := illegalPhase_selects rc b hp <;> rw [hrow]
    · exact ⟨rfl, rfl, rfl⟩
    · exact ⟨rfl, rfl, rfl⟩

theorem feedRow_illegalPhaseLow (rc b : Byte) (k : BitVec 1) :
    feedRow rc (0b101#3 ++ k) b = .illegalPhaseLow k b := by
  obtain rfl | rfl : k = 0#1 ∨ k = 1#1 := by revert k; decide
  · rfl
  · rfl

theorem feedRow_illegalPhaseHigh (rc b : Byte) (k : BitVec 2) :
    feedRow rc (0b11#2 ++ k) b = .illegalPhaseHigh k b := by
  obtain rfl | rfl | rfl | rfl : k = 0#2 ∨ k = 1#2 ∨ k = 2#2 ∨ k = 3#2 := by revert k; decide
  iterate 4 rfl

/-- A selector word decodes to the row of its phase and its byte. -/
theorem decodeSel_of_feedRow {rc b : Byte} {p : PhaseCode} {i : Instr} (h : feedRow rc p b = i) :
    decodeSel rc (selWord p b) = some i :=
  h ▸ decodeSel_selWord rc p b

theorem decodeQuery_toNat (k : BitVec 1) : decodeQuery k.toNat = some (.query k) := by
  simp [decodeQuery, k.isLt]

/-- Settles O27: the word of a selector row is a phase and a byte, and that phase's row for the byte is the
instruction; the accept row above a "by priority" row is excluded by well-formedness or by the condition. -/
theorem encodedInstructionsDecodeBack : Obligations.EncodedInstructionsDecodeBack := by
  intro i rc hwf hcond
  cases i with
  | hdrAccept => exact decodeSel_of_feedRow (feedRow_awaitHeader rc header)
  | hdrReject b => exact decodeSel_of_feedRow (p := Phase.awaitHeader) (if_neg (bne_iff_ne.mp hwf))
  | cmdAccept => exact decodeSel_of_feedRow (feedRow_awaitCommand rc command)
  | cmdReject b => exact decodeSel_of_feedRow (p := Phase.awaitCommand) (if_neg (bne_iff_ne.mp hwf))
  | data1 b => exact decodeSel_of_feedRow (feedRow_data1 rc b)
  | data2 b => exact decodeSel_of_feedRow (feedRow_data2 rc b)
  | data3 b => exact decodeSel_of_feedRow (feedRow_data3 rc b)
  | data4 b => exact decodeSel_of_feedRow (feedRow_data4 rc b)
  | data5 b => exact decodeSel_of_feedRow (feedRow_data5 rc b)
  | data6 b => exact decodeSel_of_feedRow (feedRow_data6 rc b)
  | cksumMatch b => exact decodeSel_of_feedRow (p := Phase.awaitChecksum) (if_pos (beq_iff_eq.mp hcond))
  | cksumMismatch b => exact decodeSel_of_feedRow (p := Phase.awaitChecksum) (if_neg (bne_iff_ne.mp hcond))
  | tailOk => exact decodeSel_of_feedRow (feedRow_awaitTail rc tail)
  | tailBad b => exact decodeSel_of_feedRow (p := Phase.awaitTail) (if_neg (bne_iff_ne.mp hwf))
  | illegalPhaseLow k b => exact decodeSel_of_feedRow (feedRow_illegalPhaseLow rc b k)
  | illegalPhaseHigh k b => exact decodeSel_of_feedRow (feedRow_illegalPhaseHigh rc b k)
  | reset | feed | idle => rfl
  | query k => exact decodeQuery_toNat k

/-- Settles O21: the selected row encodes to a selector word, so it is no port or query operation, and FEED
and `exec` run it alike. -/
theorem feedRunsTheRowOfItsPhase : Obligations.FeedRunsTheRowOfItsPhase := by
  intro s b
  obtain ⟨hword, -, -⟩ := feedRow_encodes_back s.runningChecksum s.phase b
  rw [exec_feed_eq]
  apply execSelRow_eq_exec
  all_goals
    intros
    intro hrow
    rw [hrow] at hword
    cases hword

/-- A row that takes a selector word takes its phase through the phase bits of its mask. -/
theorem hits_phase {r : SelRow} {rc : Byte} {w : Selector} (h : r.hits rc w = true) :
    selPhase w &&& selPhase r.mask = selPhase r.pattern := by
  obtain ⟨hword, -⟩ := Bool.and_eq_true_iff.mp h
  rw [← beq_iff_eq.mp hword]
  exact BitVec.extractLsb'_and.symm

/-- The phase bits of rows 1 to 14 (numbered from 0 here) take legal phases only, those of rows 15 and 16
the other six. -/
theorem selRows_phase_legal : ∀ (j : Fin selRows.length) (p : PhaseCode),
    p &&& selPhase selRows[j].mask = selPhase selRows[j].pattern → (j.val < 14 ↔ Phase.Legal p) := by
  decide

theorem selRows_hits_legal {j : Nat} {r : SelRow} {rc : Byte} {p : PhaseCode} {b : Byte}
    (hr : selRows[j]? = some r) (h : r.hits rc (selWord p b) = true) : j < 14 ↔ Phase.Legal p := by
  obtain ⟨hj, rfl⟩ := List.getElem?_eq_some_iff.mp hr
  have hp := hits_phase h
  rw [selPhase_selWord] at hp
  exact selRows_phase_legal ⟨j, hj⟩ p hp

/-- Some row takes every selector word, as every selector word decodes. -/
theorem selRows_findIdx?_selWord (rc : Byte) (p : PhaseCode) (b : Byte) :
    ∃ k, selRows.findIdx? (·.hits rc (selWord p b)) = some k := by
  obtain ⟨r, hr, -⟩ := Option.map_eq_some_iff.mp (decodeSel_selWord rc p b)
  have hhits := List.find?_some hr
  rw [← Option.isSome_iff_exists, List.findIdx?_isSome]
  exact List.any_eq_true.mpr ⟨r, List.mem_of_find?_eq_some hr, hhits⟩

/-- Settles O26: a row that takes the word is one of the first fourteen exactly in a legal phase, whether it
is the first to take it or not. -/
theorem decodeTableIsTotalAndFirstMatch : Obligations.DecodeTableIsTotalAndFirstMatch := by
  intro rc p b
  obtain ⟨k, hk⟩ := selRows_findIdx?_selWord rc p b
  obtain ⟨hlt, hhits, -⟩ := List.findIdx?_eq_some_iff_getElem.mp hk
  refine ⟨k, hk, selRows_hits_legal (List.getElem?_eq_getElem hlt) hhits, ?_⟩
  intro hillegal j r hr h
  exact Nat.le_of_not_lt (mt (selRows_hits_legal hr h).mp hillegal)

/-- Settles O28: a selector word is a phase and a byte, and decodes to their row. -/
theorem decodedSelectorsEncodeBack : Obligations.DecodedSelectorsEncodeBack := by
  intro rc w
  have hdecode := decodeSel_selWord rc (selPhase w) (selByte w)
  have hback := feedRow_encodes_back rc (selPhase w) (selByte w)
  rw [selWord_parts] at hdecode hback
  exact ⟨_, hdecode, hback⟩

/-- Settles O29: the decoder computes on the thirteen words. -/
theorem tableWordsDecode : Obligations.TableWordsDecode := by
  unfold Obligations.TableWordsDecode
  decide

end Sys2Proof.Machine

namespace Sys2Proof.Machine

/-! ## What a step does with the oldest host word (R58, R93, R94, R98) -/

section
variable {s : State} {w : HostWord} {rest : List HostWord}

theorem step_of_decode_ok {i : Instr} (hin : s.input = w :: rest) (hw : decode w = .ok i) :
    step s = exec i { s with input := rest } := by
  simp only [step, fetch, hin, hw]

theorem step_of_decode_error {e : DecodeError} (hin : s.input = w :: rest) (hw : decode w = .error e) :
    step s = .refused (.noOperation e) := by
  simp only [step, fetch, hin, hw]

end

theorem decode_port_ok {pins : BitVec 2} {b : Byte} {i : Instr} (h : decode (.port pins b) = .ok i) :
    i = .reset ∨ i = .feed b ∨ i = .idle := by
  simp only [decode] at h
  split at h
  · next hport =>
    cases h
    exact decodePort_ok hport
  · cases h

/-- With `rst` 1 the edge is a RESET, whatever `in_valid` and `in_byte` are (R83, decision D9). -/
theorem decode_port_rst (v : BitVec 1) (b : Byte) : decode (.port (1#1 ++ v) b) = .ok .reset := by
  obtain rfl | rfl : v = 0#1 ∨ v = 1#1 := by revert v; decide
  · rfl
  · rfl

/-- Without `rst` the edge is a FEED or idle, as `in_valid` says (R98). -/
theorem decode_edgeWord_valid (b : Byte) : decode (edgeWord (true, b)) = .ok (.feed b) := by
  simp [edgeWord, decode, decodePort, portRows]

theorem decode_edgeWord_idle (b : Byte) : decode (edgeWord (false, b)) = .ok .idle := by
  simp [edgeWord, decode, decodePort, portRows]

theorem decode_query_of_le {n : Nat} (h : 2 ≤ n) : decode (.query n) = .error (.queryIndex n) := by
  simp [decode, decodeQuery, Nat.not_lt.mpr h]

/-- Settles O17: RESET writes R40's values. -/
theorem resetSetsEveryRegister : Obligations.ResetSetsEveryRegister := fun s =>
  ⟨s.takeReset, rfl, rfl, rfl, rfl, rfl, rfl, rfl, rfl, rfl, rfl, rfl, rfl, rfl⟩

/-- Settles O18: IDLE is the write of `out_valid`. -/
theorem idleChangesOnlyOutValid : Obligations.IdleChangesOnlyOutValid := fun _ => rfl

/-- Settles O19: QUERY is the return of the counter its index names. -/
theorem queryReturnsTheCount : Obligations.QueryReturnsTheCount := fun _ => ⟨rfl, rfl⟩

/-- Settles O22: the edge decodes to RESET, so the byte is not looked at. -/
theorem resetWinsAtItsEdge : Obligations.ResetWinsAtItsEdge :=
  fun _ v b _ hin => step_of_decode_ok hin (decode_port_rst v b)

/-- Settles O25: neither word decodes, and the fetch names the reason. -/
theorem noOperationIsRefused : Obligations.NoOperationIsRefused :=
  ⟨fun _ _ _ hin hn => step_of_decode_error hin (decode_query_of_le hn),
    fun _ _ _ hin => step_of_decode_error hin rfl⟩

/-! ## When a FEED emits (R91, R130) -/

/-- A FEED that returns a reading is CKSUM_MATCH: no other row returns one. -/
theorem exec_feed_emits {b : Byte} {s t : State} {r : Reading} (h : exec (.feed b) s = .next t)
    (hr : t.fedResult = some r) :
    s.phase = Phase.awaitChecksum ∧ b = s.runningChecksum ∧
      t = (s.goto Phase.awaitTail).feedReturns (some { pm25 := s.pendPm25, pm10 := s.pendPm10 }) := by
  obtain ⟨-, -, rfl⟩ | ⟨-, -, rfl⟩ | ⟨-, -, rfl⟩ | ⟨-, -, rfl⟩ | ⟨-, rfl⟩ | ⟨-, rfl⟩ | ⟨-, rfl⟩ |
    ⟨-, rfl⟩ | ⟨-, rfl⟩ | ⟨-, rfl⟩ | ⟨hp, hb, rfl⟩ | ⟨-, -, rfl⟩ | ⟨-, -, rfl⟩ | ⟨-, -, rfl⟩ :=
    exec_feed_next h
  iterate 10 cases hr
  · exact ⟨hp, hb, rfl⟩
  iterate 3 cases hr

theorem exec_feed_fedResult_eq_none {b : Byte} {s t : State} (h : exec (.feed b) s = .next t)
    (hp : s.phase ≠ Phase.awaitChecksum) : t.fedResult = none :=
  Option.eq_none_iff_forall_ne_some.mpr fun _ hr => hp (exec_feed_emits h hr).1

/-- Settles O36: a reading comes only from CKSUM_MATCH, and CKSUM_MATCH returns one. -/
theorem readingExactlyAtChecksumMatch : Obligations.ReadingExactlyAtChecksumMatch := by
  intro s t b h
  obtain ⟨hresult, -, -⟩ := exec_feed_outputs h
  have hiff : (∃ r, t.result = .fed (some r)) ↔
      decodeSel s.runningChecksum (selWord s.phase b) = some (.cksumMatch b) := by
    rw [decodeSel_selWord, Option.some_inj]
    constructor
    · rintro ⟨r, hr⟩
      obtain ⟨hp, hb, -⟩ := exec_feed_emits h (HostResult.fed.inj (hresult.symm.trans hr))
      rw [hp, feedRow_awaitChecksum, if_pos hb]
    · intro hrow
      rw [exec_feed_eq, hrow] at h
      obtain ⟨-, rfl⟩ := runRow_next.mp h
      exact ⟨_, rfl⟩
  refine ⟨hiff, fun hne => ?_⟩
  cases hfed : t.fedResult with
  | none => rw [hresult, hfed]
  | some r => exact absurd (hiff.mp ⟨r, hfed ▸ hresult⟩) hne

/-! ## The output pulse (R100) -/

/-- A FEED leaves `out_valid` 1 only as CKSUM_MATCH, which copies the pending fields and awaits the tail. -/
theorem exec_feed_pulseInv {b : Byte} {s t : State} (h : exec (.feed b) s = .next t) : t.PulseInv := by
  intro hvalid
  obtain ⟨-, hsome, -⟩ := exec_feed_outputs h
  obtain ⟨r, hr⟩ := Option.isSome_iff_exists.mp (hsome ▸ hvalid)
  obtain ⟨-, -, rfl⟩ := exec_feed_emits h hr
  exact ⟨rfl, rfl, rfl⟩

/-- Settles O41: a FEED establishes the invariant whatever it started from, RESET and IDLE clear
`out_valid`, and QUERY and the fetch write none of it. -/
theorem stepKeepsOutputPulse : Obligations.StepKeepsOutputPulse :=
  fun _ _ hs h => step_keeps (P := State.PulseInv) (fun _ _ hs => hs) (fun _ _ => nofun)
    (fun _ _ _ _ => exec_feed_pulseInv) (fun _ _ => nofun) (fun _ _ hs => hs) hs h

/-- Settles O45: RESET and IDLE clear `out_valid`, and a FEED in `AwaitTail` returns no reading. -/
theorem outValidLastsOneEdge : Obligations.OutValidLastsOneEdge := by
  intro s u pins b rest hs hvalid hin h
  obtain ⟨hphase, -, -⟩ := hs hvalid
  obtain ⟨i, t, hfetch, hexec⟩ := step_next h
  obtain ⟨hnil, -, -⟩ | ⟨w, ws, hin', hw, rfl⟩ := fetch_ok hfetch
  · cases hin.symm.trans hnil
  · cases hin.symm.trans hin'
    obtain rfl | rfl | rfl := decode_port_ok hw
    · cases hexec; rfl
    · obtain ⟨-, hsome, -⟩ := exec_feed_outputs hexec
      rw [hsome, exec_feed_fedResult_eq_none hexec (by simp +decide [hphase])]
      rfl
    · cases hexec; rfl

/-! ## FEED never fails, and what a rejected byte does (R31, R32, R92) -/

/-- A row of a whole phase that is selected was selected in that phase, with the byte that was fed. -/
theorem feedRow_eq_of_encode {rc b c : Byte} {p q : PhaseCode} {f : Byte → Instr}
    (hf : ∀ c, encode (f c) = .sel12 (selWord q c)) (h : feedRow rc p b = f c) : p = q ∧ b = c := by
  obtain ⟨hword, -, -⟩ := feedRow_encodes_back rc p b
  rw [h, hf] at hword
  exact (selWord_inj ..).mp (Encoding.sel12.inj hword).symm

/-- A selected row that rejects a byte rejects the byte that was fed. -/
theorem rejected_byte_eq {rc b c : Byte} {p : PhaseCode}
    (h : feedRow rc p b ∈ [Instr.hdrReject c, .cmdReject c, .tailBad c, .cksumMismatch c]) : b = c := by
  simp only [List.mem_cons, List.not_mem_nil, or_false] at h
  obtain h | h | h | h := h
  · exact (feedRow_eq_of_encode (f := .hdrReject) (fun _ => rfl) h).2
  · exact (feedRow_eq_of_encode (f := .cmdReject) (fun _ => rfl) h).2
  · exact (feedRow_eq_of_encode (f := .tailBad) (fun _ => rfl) h).2
  · exact (feedRow_eq_of_encode (f := .cksumMismatch) (fun _ => rfl) h).2

section
variable {i : Instr} {b : Byte} {s t : State}

/-- HDR_REJECT, CMD_REJECT and TAIL_BAD resynchronize and count in `bad_bytes` alone (R31). -/
theorem execSelRow_of_bad_byte (h : execSelRow i s = .next t)
    (hi : i ∈ [Instr.hdrReject b, .cmdReject b, .tailBad b]) :
    t.phase = Phase.awaitHeader ∧ t.badBytes = incW s.counterWidth s.badBytes ∧
      t.checksumFailures = s.checksumFailures := by
  simp only [List.mem_cons, List.not_mem_nil, or_false] at hi
  obtain rfl | rfl | rfl := hi <;> obtain ⟨hsel, rfl⟩ := runRow_next.mp h
  · -- the one row that leaves the phase is selected in `AwaitHeader` only
    obtain ⟨hp, -⟩ := Bool.and_eq_true_iff.mp hsel
    exact ⟨beq_iff_eq.mp hp, rfl, rfl⟩
  · exact ⟨rfl, rfl, rfl⟩
  · exact ⟨rfl, rfl, rfl⟩

/-- CKSUM_MISMATCH resynchronizes and counts in `checksum_failures` alone (R32). -/
theorem execSelRow_of_cksumMismatch (h : execSelRow (.cksumMismatch b) s = .next t) :
    t.phase = Phase.awaitHeader ∧ t.badBytes = s.badBytes ∧
      t.checksumFailures = incW s.counterWidth s.checksumFailures := by
  obtain ⟨-, rfl⟩ := runRow_next.mp h
  exact ⟨rfl, rfl, rfl⟩

/-- Every other row advances and counts in neither (R23, R31, R32). -/
theorem execSelRow_of_accepted (h : execSelRow i s = .next t)
    (hi : ∀ c, i ∉ [Instr.hdrReject c, .cmdReject c, .tailBad c, .cksumMismatch c]) :
    t.phase = Phase.next s.phase ∧ t.SameCounters s := by
  have hphase := execSelRow_phase h
  have hcounters := execSelRow_counters h
  cases i with
  | hdrReject c | cmdReject c | tailBad c | cksumMismatch c => exact absurd (by simp) (hi c)
  | _ => exact ⟨hphase, hcounters⟩

end

/-- Settles O20: in a legal phase the selected row runs, alone or as FEED, and it is a rejecting row of the
byte that was fed or one that advances. -/
theorem feedNeverFails : Obligations.FeedNeverFails := by
  intro s b hlegal
  obtain ⟨t, ht⟩ := exec_feed_of_legal b hlegal
  have hrow := exec_feed_eq b s ▸ ht
  refine ⟨_, t, decodeSel_selWord _ _ _, feedRunsTheRowOfItsPhase s b ▸ ht, ht,
    execSelRow_of_bad_byte hrow, fun hmismatch => ?_, fun hnot => ?_⟩
  · rw [hmismatch] at hrow
    exact execSelRow_of_cksumMismatch hrow
  · refine execSelRow_of_accepted hrow fun c hc => hnot ?_
    rwa [← rejected_byte_eq hc] at hc

/-! ## Emissions are ten bytes apart (R103) -/

/-- The fewest bytes that lead from a phase to `AwaitChecksum`, where alone a FEED can emit. -/
def bytesToChecksum (p : PhaseCode) : Nat :=
  if p = Phase.awaitTail then 9 else 8 - p.toNat

/-- One row comes at most one byte nearer to `AwaitChecksum`. -/
theorem bytesToChecksum_le_rowPhase (p : PhaseCode) (i : Instr) :
    bytesToChecksum p ≤ bytesToChecksum (rowPhase p i) + 1 := by
  cases i with
  | hdrReject => exact Nat.le_succ _
  | cmdReject | cksumMismatch | tailBad =>
    show bytesToChecksum p ≤ bytesToChecksum Phase.awaitHeader + 1
    revert p; decide
  | _ =>
    show bytesToChecksum p ≤ bytesToChecksum (Phase.next p) + 1
    revert p; decide

/-- As many bytes as `AwaitChecksum` is away return nothing, whatever they are. -/
theorem feedAll_returns_none {bs : List Byte} {s : State} (hlegal : Phase.Legal s.phase)
    (hlen : bs.length ≤ bytesToChecksum s.phase) :
    ∃ u, feedAll bs s = some (u, List.replicate bs.length none) := by
  induction bs generalizing s with
  | nil => exact ⟨s, rfl⟩
  | cons b bs ih =>
    rw [List.length_cons] at hlen
    obtain ⟨m, hm⟩ := exec_feed_of_legal b hlegal
    have hnone : m.fedResult = none := by
      refine exec_feed_fedResult_eq_none hm fun hp => ?_
      rw [hp] at hlen
      exact Nat.not_succ_le_zero _ hlen
    have hnear : bytesToChecksum s.phase ≤ bytesToChecksum m.phase + 1 := by
      have hrow := exec_feed_eq b s ▸ hm
      rw [execSelRow_phase hrow]
      exact bytesToChecksum_le_rowPhase _ _
    obtain ⟨u, hu⟩ := ih (exec_feed_keeps_legalPhase hm) (by omega)
    refine ⟨u, ?_⟩
    rw [feedAll_cons_of_next bs hm, hu, hnone]
    rfl

/-- Settles O54: an emission leaves `AwaitTail`, nine bytes away from `AwaitChecksum`. -/
theorem emissionsAreTenBytesApart : Obligations.EmissionsAreTenBytesApart := by
  intro s t b r bs h hr hlen
  obtain ⟨hresult, -, -⟩ := exec_feed_outputs h
  obtain ⟨-, -, rfl⟩ := exec_feed_emits h (HostResult.fed.inj (hresult.symm.trans hr))
  exact feedAll_returns_none (exec_feed_keeps_legalPhase h) hlen

/-! ## A run of edges refines the FEEDs of its valid bytes (R105) -/

/-- After a FEED the output port shows the reading it returned, or none (R98). -/
theorem portReading_eq_fedResult {b : Byte} {s t : State} (h : exec (.feed b) s = .next t) :
    t.portReading = t.fedResult := by
  obtain ⟨-, hvalid, houtputs⟩ := exec_feed_outputs h
  show (if t.outValid then some t.outputs else none) = t.fedResult
  rw [hvalid, houtputs]
  cases t.fedResult <;> rfl

theorem runPort_succ_of_next {s t : State} (n : Nat) (h : step s = .next t) :
    runPort (n + 1) s = (runPort n t).map fun p => (p.1, t.portReading :: p.2) := by
  simp only [runPort, h]

/-- The refinement from any two states with the same decoder fields: they keep the same fields, while the
port's side alone takes host words and changes the output port at idle edges. -/
theorem runPort_refines_feedAll {es : List (Bool × Byte)} {s s' : State} (hs : s.SameDecoder s')
    (hlegal : Phase.Legal s.phase) (hin : s.input = es.map edgeWord) :
    ∃ t shown u fed, runPort es.length s = some (t, shown) ∧ feedAll (fedBytes es) s' = some (u, fed) ∧
      t.SameDecoder u ∧ shown.filterMap id = fed.filterMap id := by
  induction es generalizing s s' with
  | nil => exact ⟨s, [], s', [], rfl, rfl, hs, rfl⟩
  | cons e es ih =>
    obtain ⟨_ | _, b⟩ := e
    · -- an idle edge shows nothing and feeds nothing
      have hstep := step_of_decode_ok hin (decode_edgeWord_idle b)
      obtain ⟨t, shown, u, fed, hrun, hfeed, hsame, hshown⟩ :=
        ih (s := { s with input := es.map edgeWord, outValid := false }) hs hlegal rfl
      refine ⟨t, none :: shown, u, fed, ?_, hfeed, hsame, hshown⟩
      rw [List.length_cons, runPort_succ_of_next _ hstep, hrun]
      rfl
    · -- a valid edge is a FEED on both sides, and shows what it returns
      have hstep := step_of_decode_ok hin (decode_edgeWord_valid b)
      obtain ⟨m, hm⟩ := exec_feed_of_legal (s := { s with input := es.map edgeWord }) b hlegal
      have hs' : ({ s with input := es.map edgeWord } : State).SameDecoder s' := hs
      obtain ⟨m', hm', hsame, hfed⟩ := exec_feed_sameDecoder hs' hm
      obtain ⟨t, shown, u, fed, hrun, hfeed, htu, hshown⟩ :=
        ih hsame (exec_feed_keeps_legalPhase hm) (exec_keeps_width_input hm).2
      refine ⟨t, m.fedResult :: shown, u, m'.fedResult :: fed, ?_, ?_, htu, ?_⟩
      · rw [List.length_cons, runPort_succ_of_next _ (hstep.trans hm), hrun, portReading_eq_fedResult hm]
        rfl
      · show feedAll (b :: fedBytes es) s' = _
        rw [feedAll_cons_of_next _ hm', hfeed]
        rfl
      · rw [hfed, List.filterMap_cons, List.filterMap_cons, hshown]

/-- Settles O55: the refinement, both sides from the one state. -/
theorem portRunRefinesFeeds : Obligations.PortRunRefinesFeeds :=
  fun _ _ hlegal hin => runPort_refines_feedAll ⟨rfl, rfl, rfl, rfl, rfl, rfl, rfl⟩ hlegal hin

end Sys2Proof.Machine

namespace Sys2Proof.Machine

/-! ## The header and command rows (R110 to R113) -/

/-- The guard of a row that a byte other than the accepted one selects (R74, "by priority"). -/
theorem reject_guard {p q : PhaseCode} {b c : Byte} (hp : p = q) (hb : b ≠ c) :
    (p == q && b != c) = true := by
  rw [hp, beq_self_eq_true, Bool.true_and, bne_iff_ne]
  exact hb

/-- Settles O1: the row runs in its phase, and its effect is written out. -/
theorem hdrAcceptStartsAFrame : Obligations.HdrAcceptStartsAFrame := fun _ hp =>
  ⟨_, runRow_next.mpr ⟨beq_iff_eq.mpr hp, rfl⟩, rfl, rfl, rfl, rfl, rfl, rfl, rfl⟩

/-- Settles O2: the row writes no phase, so it stays in its own. -/
theorem hdrRejectCountsAndStays : Obligations.HdrRejectCountsAndStays := fun _ _ hp hb =>
  ⟨_, runRow_next.mpr ⟨reject_guard hp hb, rfl⟩, hp, rfl, rfl, rfl, rfl, rfl, rfl⟩

/-- Settles O4: the phase it reverts to does not depend on the byte. -/
theorem cmdRejectCountsAndReverts : Obligations.CmdRejectCountsAndReverts := fun _ _ hp hb =>
  ⟨_, runRow_next.mpr ⟨reject_guard hp hb, rfl⟩, rfl, rfl, rfl, rfl, rfl, rfl, rfl⟩

/-! ## How `AwaitCommand` and `Data1` are entered (R110, R112) -/

/-- A FEED goes back to the header search, goes on through the header or the command byte, or is past both. -/
theorem exec_feed_phase_cases {b : Byte} {s t : State} (h : exec (.feed b) s = .next t) :
    t.phase = Phase.awaitHeader ∨
    (s.phase = Phase.awaitHeader ∧ b = header ∧ t.phase = Phase.awaitCommand) ∨
    (s.phase = Phase.awaitCommand ∧ b = command ∧ t.phase = Phase.data1) ∨
    Phase.data1 < t.phase := by
  obtain ⟨hp, hb, rfl⟩ | ⟨hp, -, rfl⟩ | ⟨hp, hb, rfl⟩ | ⟨-, -, rfl⟩ | ⟨-, rfl⟩ | ⟨-, rfl⟩ | ⟨-, rfl⟩ |
    ⟨-, rfl⟩ | ⟨-, rfl⟩ | ⟨-, rfl⟩ | ⟨-, -, rfl⟩ | ⟨-, -, rfl⟩ | ⟨-, -, rfl⟩ | ⟨-, -, rfl⟩ :=
    exec_feed_next h
  · exact .inr (.inl ⟨hp, hb, rfl⟩)
  · exact .inl hp
  · exact .inr (.inr (.inl ⟨hp, hb, rfl⟩))
  · exact .inl rfl
  -- DATA1 to DATA6 and CKSUM_MATCH
  iterate 7 exact .inr (.inr (.inr (by simp +decide)))
  iterate 3 exact .inl rfl

theorem exec_feed_into_awaitCommand {b : Byte} {s t : State} (h : exec (.feed b) s = .next t)
    (ht : t.phase = Phase.awaitCommand) : s.phase = Phase.awaitHeader ∧ b = header := by
  obtain h0 | ⟨hp, hb, -⟩ | ⟨-, -, h2⟩ | hlt := exec_feed_phase_cases h
  · exact absurd (ht.symm.trans h0) (by decide)
  · exact ⟨hp, hb⟩
  · exact absurd (ht.symm.trans h2) (by decide)
  · exact absurd (ht ▸ hlt) (by decide)

theorem exec_feed_into_data1 {b : Byte} {s t : State} (h : exec (.feed b) s = .next t)
    (ht : t.phase = Phase.data1) : s.phase = Phase.awaitCommand ∧ b = command := by
  obtain h0 | ⟨-, -, h1⟩ | ⟨hp, hb, -⟩ | hlt := exec_feed_phase_cases h
  · exact absurd (ht.symm.trans h0) (by decide)
  · exact absurd (ht.symm.trans h1) (by decide)
  · exact ⟨hp, hb⟩
  · exact absurd (ht ▸ hlt) (by decide)

theorem phase_of_runRow {p q : PhaseCode} {r : Option Reading} {e t : State}
    (h : runRow (p == q) r e = .next t) : p = q := by
  obtain ⟨hsel, -⟩ := runRow_next.mp h
  exact beq_iff_eq.mp hsel

theorem phase_and_of_runRow {p q : PhaseCode} {c : Bool} {r : Option Reading} {e t : State}
    (h : runRow (p == q && c) r e = .next t) : p = q ∧ c = true := by
  obtain ⟨hsel, -⟩ := runRow_next.mp h
  obtain ⟨hp, hc⟩ := Bool.and_eq_true_iff.mp hsel
  exact ⟨beq_iff_eq.mp hp, hc⟩

/-- A row that answers a next state is one that the phase, the checksum and some byte select (R74). -/
theorem feedRow_of_execSelRow {i : Instr} {s t : State} (h : execSelRow i s = .next t) :
    ∃ b, feedRow s.runningChecksum s.phase b = i := by
  cases i with
  | illegalPhaseLow | illegalPhaseHigh => exact absurd h raiseIllegalPhase_ne_next
  | reset | feed | idle | query => cases h
  | hdrAccept => exact ⟨header, by rw [phase_of_runRow h]; rfl⟩
  | cmdAccept => exact ⟨command, by rw [phase_of_runRow h]; rfl⟩
  | tailOk => exact ⟨tail, by rw [phase_of_runRow h]; rfl⟩
  | data1 b | data2 b | data3 b | data4 b | data5 b | data6 b =>
    exact ⟨b, by rw [phase_of_runRow h]; rfl⟩
  | cksumMatch b =>
    obtain ⟨hp, hb⟩ := phase_and_of_runRow h
    rw [hp]
    exact ⟨b, if_pos (beq_iff_eq.mp hb)⟩
  | hdrReject b | cmdReject b | cksumMismatch b | tailBad b =>
    obtain ⟨hp, hb⟩ := phase_and_of_runRow h
    rw [hp]
    exact ⟨b, if_neg (bne_iff_ne.mp hb)⟩

/-- What an instruction can do to the phase: RESET's, none, or what the FEED of some byte does that selects
the row executed. -/
theorem exec_next_cases {i : Instr} {s t : State} (h : exec i s = .next t) :
    (i = .reset ∧ t.phase = Phase.awaitHeader) ∨
    ((i = .idle ∨ ∃ k, i = .query k) ∧ t.phase = s.phase) ∨
    ∃ b, exec (.feed b) s = .next t ∧ (i = .feed b ∨ i = feedRow s.runningChecksum s.phase b) := by
  cases i with
  | reset => cases h; exact .inl ⟨rfl, rfl⟩
  | idle => cases h; exact .inr (.inl ⟨.inl rfl, rfl⟩)
  | query k => cases h; exact .inr (.inl ⟨.inr ⟨k, rfl⟩, rfl⟩)
  | feed b => exact .inr (.inr ⟨b, h, .inl rfl⟩)
  | _ =>
    have hrow := (execSelRow_eq_exec (by nofun) (by nofun) (by nofun) (by nofun) s).trans h
    obtain ⟨b, hb⟩ := feedRow_of_execSelRow hrow
    exact .inr (.inr ⟨b, by rw [exec_feed_eq, hb, hrow], .inr hb.symm⟩)

/-- Settles O3: an instruction that moves the phase elsewhere than to `AwaitHeader` does what a FEED does,
and a FEED enters each of the two phases at one byte, in one phase. -/
theorem cmdAcceptEntersData1 : Obligations.CmdAcceptEntersData1 := by
  refine ⟨fun s hp => ⟨_, runRow_next.mpr ⟨beq_iff_eq.mpr hp, rfl⟩, rfl, rfl, rfl, rfl, rfl, rfl, rfl⟩,
    fun i s t h hne ht => ?_, fun i s t h hne ht => ?_, fun i s t h hp ht => ?_⟩
  · obtain ⟨-, h0⟩ | ⟨-, hkeep⟩ | ⟨b, hfeed, hi⟩ := exec_next_cases h
    · exact absurd (ht.symm.trans h0) (by decide)
    · exact absurd (hkeep.symm.trans ht) hne
    · obtain ⟨hp, rfl⟩ := exec_feed_into_data1 hfeed ht
      rw [hp] at hi
      exact ⟨hp, hi.symm⟩
  · obtain ⟨-, h0⟩ | ⟨-, hkeep⟩ | ⟨b, hfeed, hi⟩ := exec_next_cases h
    · exact absurd (ht.symm.trans h0) (by decide)
    · exact absurd (hkeep.symm.trans ht) hne
    · obtain ⟨hp, rfl⟩ := exec_feed_into_awaitCommand hfeed ht
      rw [hp] at hi
      exact ⟨hp, hi.symm⟩
  · obtain ⟨-, h0⟩ | ⟨hi, -⟩ | ⟨b, hfeed, -⟩ := exec_next_cases h
    · exact absurd (ht.symm.trans h0) (by decide)
    · exact hi
    · obtain ⟨hp', -⟩ := exec_feed_into_awaitCommand hfeed ht
      exact absurd (hp.symm.trans hp') (by decide)

/-! ## The pair before a payload (R112) -/

/-- A burst of two parts that ran to its end ran its first part, and the second from where that ended. -/
theorem feedAll_append_eq_some {bs cs : List Byte} {s t : State} {rs : List (Option Reading)}
    (h : feedAll (bs ++ cs) s = some (t, rs)) :
    ∃ m ms ns, feedAll bs s = some (m, ms) ∧ feedAll cs m = some (t, ns) := by
  induction bs generalizing s rs with
  | nil => exact ⟨s, [], rs, rfl, h⟩
  | cons b bs ih =>
    obtain ⟨u, us, hu, hrest, -⟩ := feedAll_cons_eq_some h
    obtain ⟨m, ms, ns, hm, hcs⟩ := ih hrest
    exact ⟨m, u.fedResult :: ms, ns, by rw [feedAll_cons_of_next bs hu, hm]; rfl, hcs⟩

/-- A burst that moved the phase has a last FEED. -/
theorem feedAll_last_feed {bs : List Byte} {s t : State} {rs : List (Option Reading)}
    (h : feedAll bs s = some (t, rs)) (hne : s.phase ≠ t.phase) :
    ∃ pre b m ms, bs = pre ++ [b] ∧ feedAll pre s = some (m, ms) ∧ exec (.feed b) m = .next t := by
  obtain rfl | ⟨pre, b, rfl⟩ := List.eq_nil_or_concat' bs
  · cases h
    exact absurd rfl hne
  · obtain ⟨m, ms, ns, hpre, hlast⟩ := feedAll_append_eq_some h
    obtain ⟨u, us, hu, hnil, -⟩ := feedAll_cons_eq_some hlast
    cases hnil
    exact ⟨pre, b, m, ms, rfl, hpre, hu⟩

/-- Settles O59: the last FEED entered `Data1`, so it was `C0` from `AwaitCommand`, which the FEED before
it entered, so that was `AA` from `AwaitHeader`. -/
theorem payloadBeginsOnlyAfterHeaderPair : Obligations.PayloadBeginsOnlyAfterHeaderPair := by
  intro s t bs rs hs hrun ht
  obtain ⟨mid, c, u, us, rfl, hmid, hc⟩ := feedAll_last_feed hrun (by rw [hs, ht]; decide)
  obtain ⟨hu, rfl⟩ := exec_feed_into_data1 hc ht
  obtain ⟨pre, a, m, ms, rfl, hpre, ha⟩ := feedAll_last_feed hmid (by rw [hs, hu]; decide)
  obtain ⟨hm, rfl⟩ := exec_feed_into_awaitCommand ha hu
  exact ⟨pre, m, ms, List.append_assoc .., hpre, hm⟩

/-! ## Noise while the header is searched for (R111) -/

/-- The FEED of a noise byte is HDR_REJECT. -/
theorem exec_feed_noise {b : Byte} {s : State} (hp : s.phase = Phase.awaitHeader) (hb : b ≠ header) :
    exec (.feed b) s = .next (s.countBadByte.feedReturns none) := by
  rw [exec_feed_eq, hp, feedRow_awaitHeader, if_neg hb]
  exact runRow_next.mpr ⟨reject_guard hp hb, rfl⟩

/-- Settles O51, by induction on the bytes: each counts one, and the counts add up modulo 2^W. -/
theorem noiseIsCountedByteByByte : Obligations.NoiseIsCountedByteByByte := by
  intro s bs
  induction bs generalizing s with
  | nil => exact fun hp hfits _ => ⟨s, rfl, hp, (Nat.mod_eq_of_lt hfits).symm, rfl⟩
  | cons b bs ih =>
    intro hp _ hnoise
    obtain ⟨hb, hbs⟩ := List.forall_mem_cons.mp hnoise
    have hm := exec_feed_noise hp hb
    obtain ⟨t, hrun, ht, hbad, hfailures⟩ :=
      ih (s.countBadByte.feedReturns none) hp (incW_lt s.counterWidth s.badBytes) hbs
    refine ⟨t, ?_, ht, ?_, hfailures⟩
    · rw [feedAll_cons_of_next bs hm, hrun]
      rfl
    · calc t.badBytes
          = ((s.badBytes + 1) % 2 ^ s.counterWidth + bs.length) % 2 ^ s.counterWidth := hbad
        _ = (s.badBytes + (b :: bs).length) % 2 ^ s.counterWidth := by
          rw [Nat.mod_add_mod, List.length_cons, Nat.add_assoc, Nat.add_comm 1]

end Sys2Proof.Machine

namespace Sys2Proof.Machine

/-! ## The payload rows (R120 to R126) -/

/-- A field whose high byte is cleared is a zero byte beside its low byte (R51). -/
theorem zext16_eq_append (b : Byte) : zext16 b = 0x00#8 ++ b :=
  BitVec.setWidth_eq_append (by decide)

/-- Settles O5: the row runs in its phase, and the zero-extended byte is the field with a clear high byte. -/
theorem data1StoresLowByteAndStartsSum : Obligations.Data1StoresLowByteAndStartsSum := fun _ b hp =>
  ⟨_, runRow_next.mpr ⟨beq_iff_eq.mpr hp, rfl⟩, rfl, zext16_eq_append b, rfl, rfl, rfl, rfl, rfl⟩

/-- Settles O6: the byte goes beside the low byte that DATA1 stored. -/
theorem data2StoresHighByte : Obligations.Data2StoresHighByte := fun s b hp =>
  ⟨_, runRow_next.mpr ⟨beq_iff_eq.mpr hp, rfl⟩, rfl, withHighByte_eq_append s.pendPm25 b, rfl, rfl, rfl,
    rfl, rfl⟩

/-- Settles O7: the row runs in its phase, and stores as DATA1 does, in the other field. -/
theorem data3StoresLowByte : Obligations.Data3StoresLowByte := fun _ b hp =>
  ⟨_, runRow_next.mpr ⟨beq_iff_eq.mpr hp, rfl⟩, rfl, zext16_eq_append b, rfl, rfl, rfl, rfl, rfl⟩

/-- Settles O8: the byte goes beside the low byte that DATA3 stored. -/
theorem data4StoresHighByte : Obligations.Data4StoresHighByte := fun s b hp =>
  ⟨_, runRow_next.mpr ⟨beq_iff_eq.mpr hp, rfl⟩, rfl, withHighByte_eq_append s.pendPm10 b, rfl, rfl, rfl,
    rfl, rfl⟩

/-- Settles O9: the row runs in its phase, and writes the checksum and the phase alone. -/
theorem data5OnlySums : Obligations.Data5OnlySums := fun _ _ hp =>
  ⟨_, runRow_next.mpr ⟨beq_iff_eq.mpr hp, rfl⟩, rfl, rfl, rfl, rfl, rfl, rfl, rfl⟩

/-- Settles O10: the row runs in its phase, and writes the checksum and the phase alone. -/
theorem data6OnlySums : Obligations.Data6OnlySums := fun _ _ hp =>
  ⟨_, runRow_next.mpr ⟨beq_iff_eq.mpr hp, rfl⟩, rfl, rfl, rfl, rfl, rfl, rfl, rfl⟩

/-- Settles O30, row by row: each runs in its own phase only, which gives the successor, and its effect
shows what it keeps. -/
theorem payloadRowsFrame : Obligations.PayloadRowsFrame := by
  intro i b s t hi h
  simp only [List.mem_cons, List.not_mem_nil, or_false] at hi
  obtain rfl | rfl | rfl | rfl | rfl | rfl := hi
  all_goals
    obtain ⟨hsel, rfl⟩ := runRow_next.mp h
    have hphase := beq_iff_eq.mp hsel
    refine ⟨rfl, rfl, rfl, by rw [hphase]; rfl, fun h10 => ?_, fun h25 => ?_, rfl, rfl, rfl, rfl, rfl⟩
  -- DATA1 and DATA2 write pm2.5
  iterate 2
    · rfl
    · simp at h25
  -- DATA3 and DATA4 write pm10
  iterate 2
    · simp at h10
    · rfl
  -- DATA5 and DATA6 write neither
  iterate 4 rfl

/-! ## The checksum of a payload in any order (R127) -/

/-- From `Data2` to `Data6` a FEED selects a row that adds its byte to the checksum. -/
theorem feedRow_sums {p : PhaseCode} (rc b : Byte) (hlo : Phase.data2 ≤ p) (hhi : p ≤ Phase.data6) :
    feedRow rc p b ∈ [Instr.data2 b, .data3 b, .data4 b, .data5 b, .data6 b] := by
  have hp : p = Phase.data2 ∨ p = Phase.data3 ∨ p = Phase.data4 ∨ p = Phase.data5 ∨ p = Phase.data6 := by
    revert p; decide
  obtain rfl | rfl | rfl | rfl | rfl := hp <;> simp

theorem execSelRow_sums {i : Instr} {b : Byte} {s t : State}
    (hi : i ∈ [Instr.data2 b, .data3 b, .data4 b, .data5 b, .data6 b]) (h : execSelRow i s = .next t) :
    t.phase = s.phase + 1#4 ∧ t.runningChecksum = s.runningChecksum + b := by
  simp only [List.mem_cons, List.not_mem_nil, or_false] at hi
  obtain rfl | rfl | rfl | rfl | rfl := hi
  all_goals
    obtain ⟨hsel, rfl⟩ := runRow_next.mp h
    exact ⟨by rw [beq_iff_eq.mp hsel]; rfl, rfl⟩

/-- A burst that starts at `Data2` or later and ends by `AwaitChecksum` adds the sum of its bytes. -/
theorem feedAll_runningChecksum {bs : List Byte} {s t : State} {rs : List (Option Reading)}
    (hlo : Phase.data2 ≤ s.phase) (hhi : s.phase.toNat + bs.length ≤ Phase.awaitChecksum.toNat)
    (h : feedAll bs s = some (t, rs)) : t.runningChecksum = s.runningChecksum + bs.sum := by
  induction bs generalizing s rs with
  | nil => cases h; simp
  | cons b bs ih =>
    obtain ⟨m, ms, hm, hrun, -⟩ := feedAll_cons_eq_some h
    simp only [Phase.data2, Phase.awaitChecksum, List.length_cons] at hlo hhi ih
    obtain ⟨hphase, hsum⟩ : m.phase = s.phase + 1#4 ∧ m.runningChecksum = s.runningChecksum + b :=
      execSelRow_sums (feedRow_sums _ b hlo (by simp only [Phase.data6]; bv_omega))
        (exec_feed_eq b s ▸ hm)
    rw [ih (by bv_omega) (by bv_omega) hrun, hsum, List.sum_cons, add_assoc]

/-- DATA1 starts the checksum at its byte, so a payload of at most six bytes leaves its sum. -/
theorem feedAll_payload_runningChecksum {bs : List Byte} {s t : State} {rs : List (Option Reading)}
    (hs : s.phase = Phase.data1) (hne : bs ≠ []) (hlen : bs.length ≤ 6)
    (h : feedAll bs s = some (t, rs)) : t.runningChecksum = bs.sum := by
  obtain ⟨b, bs, rfl⟩ := List.exists_cons_of_ne_nil hne
  obtain ⟨m, ms, hm, hrun, -⟩ := feedAll_cons_eq_some h
  obtain ⟨hphase, hsum⟩ : m.phase = Phase.data2 ∧ m.runningChecksum = b := by
    rw [exec_feed_eq, hs, feedRow_data1] at hm
    obtain ⟨-, rfl⟩ := runRow_next.mp hm
    exact ⟨rfl, rfl⟩
  have hlo : Phase.data2 ≤ m.phase := by rw [hphase]; decide
  have hhi : m.phase.toNat + bs.length ≤ Phase.awaitChecksum.toNat := by
    rw [hphase]
    exact Nat.add_le_add_left (Nat.le_of_succ_le_succ hlen) 3
  rw [feedAll_runningChecksum hlo hhi hrun, hsum, List.sum_cons]

/-- Settles O38: both orders leave their sum, and a sum does not depend on the order. -/
theorem checksumIgnoresPayloadOrder : Obligations.ChecksumIgnoresPayloadOrder := by
  intro s t t' bs bs' rs rs' hs hlen hperm hrun hrun'
  have hlen' : bs'.length = 6 := hperm.length_eq ▸ hlen
  calc t.runningChecksum
      = bs.sum := feedAll_payload_runningChecksum hs (List.ne_nil_of_length_pos (by omega)) hlen.le hrun
    _ = bs'.sum := hperm.sum_eq
    _ = t'.runningChecksum :=
      (feedAll_payload_runningChecksum hs (List.ne_nil_of_length_pos (by omega)) hlen'.le hrun').symm

end Sys2Proof.Machine

namespace Sys2Proof.Machine

/-! ## The checksum and tail rows (R130 to R133) -/

/-- Settles O11: the row runs in its phase where the byte is the checksum, and returns the pending fields. -/
theorem cksumMatchEmits : Obligations.CksumMatchEmits := fun _ _ hp hb =>
  ⟨_, runRow_next.mpr ⟨Bool.and_eq_true_iff.mpr ⟨beq_iff_eq.mpr hp, beq_iff_eq.mpr hb⟩, rfl⟩,
    rfl, rfl, rfl, rfl, rfl, rfl, rfl, rfl, rfl, rfl⟩

/-- Settles O12: the row runs at any other byte, and writes its counter and the phase alone. -/
theorem cksumMismatchCountsAndReverts : Obligations.CksumMismatchCountsAndReverts := fun _ _ hp hb =>
  ⟨_, runRow_next.mpr ⟨reject_guard hp hb, rfl⟩, rfl, rfl, rfl, rfl, rfl, rfl, rfl⟩

/-- Settles O14: the phase it reverts to does not depend on the byte. -/
theorem tailBadCountsAndReverts : Obligations.TailBadCountsAndReverts := fun _ _ hp hb =>
  ⟨_, runRow_next.mpr ⟨reject_guard hp hb, rfl⟩, rfl, rfl, rfl, rfl, rfl, rfl, rfl⟩

/-- Only the FEED of the running checksum enters `AwaitTail`. -/
theorem exec_feed_into_awaitTail {b : Byte} {s t : State} (h : exec (.feed b) s = .next t)
    (ht : t.phase = Phase.awaitTail) : s.phase = Phase.awaitChecksum ∧ b = s.runningChecksum := by
  obtain ⟨-, -, rfl⟩ | ⟨hp, -, rfl⟩ | ⟨-, -, rfl⟩ | ⟨-, -, rfl⟩ | ⟨-, rfl⟩ | ⟨-, rfl⟩ | ⟨-, rfl⟩ |
    ⟨-, rfl⟩ | ⟨-, rfl⟩ | ⟨-, rfl⟩ | ⟨hp, hb, rfl⟩ | ⟨-, -, rfl⟩ | ⟨-, -, rfl⟩ | ⟨-, -, rfl⟩ :=
    exec_feed_next h
  · simp +decide at ht
  · -- HDR_REJECT stays in `AwaitHeader`
    exact absurd (hp.symm.trans ht) (by decide)
  iterate 8 simp +decide at ht
  · exact ⟨hp, hb⟩
  iterate 3 simp +decide at ht

/-- Settles O13: the row runs in its phase; and an instruction that moves the phase to `AwaitTail` does what
a FEED does, which enters it by a checksum match alone. -/
theorem tailOkEndsTheFrame : Obligations.TailOkEndsTheFrame := by
  refine ⟨fun s hp => ⟨_, runRow_next.mpr ⟨beq_iff_eq.mpr hp, rfl⟩, rfl, rfl, rfl, rfl, rfl, rfl, rfl⟩,
    fun i s t h hne ht => ?_⟩
  obtain ⟨-, h0⟩ | ⟨-, hkeep⟩ | ⟨b, hfeed, hi⟩ := exec_next_cases h
  · exact absurd (ht.symm.trans h0) (by decide)
  · exact absurd (hkeep.symm.trans ht) hne
  · obtain ⟨hp, rfl⟩ := exec_feed_into_awaitTail hfeed ht
    rw [hp, feedRow_awaitChecksum, if_pos rfl] at hi
    exact ⟨hp, hi.symm⟩

/-! ## The three ends of a frame (R136) -/

theorem feedAll_keeps_legalPhase {bs : List Byte} {s t : State} {rs : List (Option Reading)}
    (hs : Phase.Legal s.phase) (h : feedAll bs s = some (t, rs)) : Phase.Legal t.phase := by
  induction bs generalizing s rs with
  | nil => cases h; exact hs
  | cons b bs ih =>
    obtain ⟨m, ms, hm, hrun, -⟩ := feedAll_cons_eq_some h
    exact ih (exec_feed_keeps_legalPhase hm) hrun

theorem toTagged_of_awaitHeader {s : State} (hs : s.phase = Phase.awaitHeader) :
    s.toTagged = ⟨.awaitHeader, s.badBytes, s.checksumFailures⟩ := by
  simp +decide [State.toTagged, State.tag, hs]

/-- The phase code that a tag stands for. -/
def TaggedPhase.code : TaggedPhase → PhaseCode
  | .awaitHeader => Phase.awaitHeader
  | .awaitCommand => Phase.awaitCommand
  | .data1 => Phase.data1
  | .data2 .. => Phase.data2
  | .data3 .. => Phase.data3
  | .data4 .. => Phase.data4
  | .data5 .. => Phase.data5
  | .data6 .. => Phase.data6
  | .awaitChecksum .. => Phase.awaitChecksum
  | .awaitTail => Phase.awaitTail

/-- A legal phase is read back off its tag; an illegal one is tagged as `AwaitHeader`. -/
theorem State.tag_code {s : State} (hs : Phase.Legal s.phase) : s.tag.code = s.phase := by
  obtain hp | hp | hp | hp | hp | hp | hp | hp | hp | hp := legalPhase_cases hs
  all_goals
    rw [State.tag, hp]
    rfl

section
variable (w bad failures : Nat) {b2 b3 b4 b5 b6 b7 c : Byte} (t : Byte)

/-- After a matching checksum the reading stands, and the tail byte is judged as a tail. -/
theorem tagged_feedAll_frame_of_match (hc : c = frameChecksum b2 b3 b4 b5 b6 b7) :
    Tagged.feedAll w [0xAA#8, 0xC0#8, b2, b3, b4, b5, b6, b7, c, t] ⟨.awaitHeader, bad, failures⟩ =
      (⟨.awaitHeader, if t = 0xAB#8 then bad else (bad + 1) % 2 ^ w, failures⟩,
        [none, none, none, none, none, none, none, none, some ⟨b3 ++ b2, b5 ++ b4⟩, none]) := by
  subst hc
  by_cases ht : t = 0xAB#8 <;>
    simp [Tagged.feedAll, Tagged.feed, Tagged.goto, Tagged.reject, frameChecksum, ht]

/-- After a failing checksum the frame is dropped, and the tail byte is judged as a header. -/
theorem tagged_feedAll_frame_of_mismatch (hc : c ≠ frameChecksum b2 b3 b4 b5 b6 b7) :
    Tagged.feedAll w [0xAA#8, 0xC0#8, b2, b3, b4, b5, b6, b7, c, t] ⟨.awaitHeader, bad, failures⟩ =
      (⟨if t = 0xAA#8 then .awaitCommand else .awaitHeader,
        if t = 0xAA#8 then bad else (bad + 1) % 2 ^ w, (failures + 1) % 2 ^ w⟩,
        List.replicate 10 none) := by
  rw [frameChecksum] at hc
  by_cases ht : t = 0xAA#8 <;>
    simp [Tagged.feedAll, Tagged.feed, Tagged.goto, Tagged.reject, Tagged.drop, hc, ht,
      List.replicate_succ]

end

/-- Settles O47: the machine ends as the tagged decoder does, which a legal phase reads back off the tag. -/
theorem frameEndsInThreeWays : Obligations.FrameEndsInThreeWays := by
  intro s b2 b3 b4 b5 b6 b7 c t hs
  have hlegal : Phase.Legal s.phase := hs ▸ Nat.zero_le 9
  obtain ⟨u, rs, hrun, htagged⟩ := feedAll_toTagged [0xAA#8, 0xC0#8, b2, b3, b4, b5, b6, b7, c, t] hlegal
  have hu := feedAll_keeps_legalPhase hlegal hrun
  rw [toTagged_of_awaitHeader hs] at htagged
  refine ⟨u, rs, hrun, fun hc => ?_, fun hc => ?_⟩
  · rw [tagged_feedAll_frame_of_match _ _ _ t hc] at htagged
    obtain ⟨hend, rfl⟩ := Prod.mk.inj htagged
    obtain ⟨htag, hbad, hfailures⟩ := Tagged.mk.inj hend
    refine ⟨rfl, ?_, hfailures.symm, hbad.symm⟩
    rw [← State.tag_code hu, ← htag]
    rfl
  · rw [tagged_feedAll_frame_of_mismatch _ _ _ t hc] at htagged
    obtain ⟨hend, rfl⟩ := Prod.mk.inj htagged
    obtain ⟨htag, hbad, hfailures⟩ := Tagged.mk.inj hend
    refine ⟨rfl, hfailures.symm, hbad.symm, ?_⟩
    rw [← State.tag_code hu, ← htag]
    exact apply_ite TaggedPhase.code ..

end Sys2Proof.Machine

namespace Sys2Proof.Machine

/-! ## From a legal phase no step faults (R150, R164, R182) -/

theorem step_of_input_nil {s : State} (hin : s.input = []) : step s = exec .idle s := by
  simp only [step, fetch, hin]

/-- Every operation that a host word names runs in a legal phase: a FEED by its row, the others in any. -/
theorem exec_decoded_of_legal {w : HostWord} {i : Instr} {s : State} (hw : decode w = .ok i)
    (hs : Phase.Legal s.phase) : ∃ t, exec i s = .next t := by
  obtain rfl | ⟨b, rfl⟩ | rfl | ⟨k, rfl⟩ := decode_ok hw
  case inr.inl => exact exec_feed_of_legal b hs
  all_goals exact ⟨_, rfl⟩

/-- Settles O43: with no word the step is an idle edge; with one, it executes what the word decodes to, or
is refused by the decoder's reason. -/
theorem legalStatesNeverFault : Obligations.LegalStatesNeverFault := by
  intro s hs
  cases hin : s.input with
  | nil => exact .inl ⟨_, step_of_input_nil hin⟩
  | cons w rest =>
    cases hw : decode w with
    | ok i =>
      rw [step_of_decode_ok hin hw]
      exact .inl (exec_decoded_of_legal hw hs)
    | error e => exact .inr ⟨w, rest, e, rfl, hw, step_of_decode_error hin hw⟩

end Sys2Proof.Machine

namespace Sys2Proof.Machine

/-! ## How far the header search is (R183) -/

theorem next_reverts_or_advances (p : PhaseCode) :
    (Phase.next p = Phase.awaitHeader ∧ ¬ (2 ≤ p.toNat ∧ p.toNat ≤ 7)) ∨
      (Phase.next p).toNat = p.toNat + 1 := by
  revert p; decide

theorem execSelRow_reverts_or_advances {i : Instr} {s t : State} (h : execSelRow i s = .next t) :
    (t.phase = Phase.awaitHeader ∧ ¬ (2 ≤ s.phase.toNat ∧ s.phase.toNat ≤ 7)) ∨
      t.phase.toNat = s.phase.toNat + 1 := by
  rw [execSelRow_phase h]
  cases i with
  | hdrReject | cmdReject | cksumMismatch | tailBad =>
    obtain ⟨hp, -⟩ := phase_and_of_runRow h
    rw [hp]
    exact .inl ⟨rfl, by decide⟩
  | _ => exact next_reverts_or_advances s.phase

/-- A FEED ends in `AwaitHeader` or one phase code further on; a payload byte always goes on (R23, R126). -/
theorem exec_feed_reverts_or_advances {b : Byte} {s t : State} (h : exec (.feed b) s = .next t) :
    (t.phase = Phase.awaitHeader ∧ ¬ (2 ≤ s.phase.toNat ∧ s.phase.toNat ≤ 7)) ∨
      t.phase.toNat = s.phase.toNat + 1 :=
  execSelRow_reverts_or_advances (exec_feed_eq b s ▸ h)

/-- Outside `AwaitHeader` each byte goes back to it or one code on, and no code is past 9, so enough bytes
lead through it. -/
theorem feedAll_take_reaches_awaitHeader {bs : List Byte} {s : State} (hs : Phase.Legal s.phase)
    (hlen : s.phase = Phase.awaitHeader ∨ 10 ≤ s.phase.toNat + bs.length) :
    ∃ n t rs, n ≤ bs.length ∧ feedAll (bs.take n) s = some (t, rs) ∧ t.phase = Phase.awaitHeader := by
  induction bs generalizing s with
  | nil =>
    have hp : s.phase = Phase.awaitHeader := hlen.resolve_right (by simpa using Nat.lt_succ_of_le hs)
    exact ⟨0, s, [], Nat.le_refl 0, rfl, hp⟩
  | cons b bs ih =>
    by_cases hp : s.phase = Phase.awaitHeader
    · exact ⟨0, s, [], Nat.zero_le _, rfl, hp⟩
    · have hfar := hlen.resolve_left hp
      rw [List.length_cons] at hfar
      obtain ⟨m, hm⟩ := exec_feed_of_legal b hs
      have hnear : m.phase = Phase.awaitHeader ∨ 10 ≤ m.phase.toNat + bs.length :=
        (exec_feed_reverts_or_advances hm).imp (·.1) (by omega)
      obtain ⟨n, t, rs, hn, hrun, ht⟩ := ih (exec_feed_keeps_legalPhase hm) hnear
      refine ⟨n + 1, t, m.fedResult :: rs, Nat.succ_le_succ hn, ?_, ht⟩
      rw [List.take_succ_cons, feedAll_cons_of_next _ hm, hrun]
      rfl

/-- Settles O49: in a phase with code k, 10 - k bytes are enough. -/
theorem headerSearchReturnsInTime : Obligations.HeaderSearchReturnsInTime :=
  fun _ _ _ hhi hlen => feedAll_take_reaches_awaitHeader hhi (.inr (by omega))

/-! ## Runs read off the tagged decoder (R30) -/

/-- What a burst returns, its end phase and its counts are those of the tagged decoder. -/
theorem feedAll_of_tagged {bs : List Byte} {s : State} {d e : Tagged} {rs : List (Option Reading)}
    (hs : Phase.Legal s.phase) (hd : s.toTagged = d) (he : Tagged.feedAll s.counterWidth bs d = (e, rs)) :
    ∃ t, feedAll bs s = some (t, rs) ∧ t.phase = e.phase.code ∧ t.badBytes = e.badBytes := by
  obtain ⟨t, ts, hrun, htagged⟩ := feedAll_toTagged bs hs
  rw [hd, he] at htagged
  obtain ⟨rfl, rfl⟩ := Prod.mk.inj htagged
  exact ⟨t, hrun, (State.tag_code (feedAll_keeps_legalPhase hs hrun)).symm, rfl⟩

theorem toTagged_of_awaitCommand {s : State} (hs : s.phase = Phase.awaitCommand) :
    s.toTagged = ⟨.awaitCommand, s.badBytes, s.checksumFailures⟩ := by
  simp +decide [State.toTagged, State.tag, hs]

theorem toTagged_of_awaitTail {s : State} (hs : s.phase = Phase.awaitTail) :
    s.toTagged = ⟨.awaitTail, s.badBytes, s.checksumFailures⟩ := by
  simp +decide [State.toTagged, State.tag, hs]

/-- Settles O52: each of the two runs counts a byte that it does not expect, and then another in
`AwaitHeader`. -/
theorem consumedHeaderIsNotReexamined : Obligations.ConsumedHeaderIsNotReexamined :=
  ⟨fun _ hs => feedAll_of_tagged (by rw [hs]; decide) (toTagged_of_awaitHeader hs) rfl,
    fun _ hs => feedAll_of_tagged (by rw [hs]; decide) (toTagged_of_awaitTail hs) rfl⟩

/-! ## Resynchronization after clean noise (R184, R185) -/

theorem feedAll_noise_stays {bs : List Byte} {s : State} (hs : s.phase = Phase.awaitHeader)
    (hclean : ∀ b ∈ bs, b ≠ header) :
    ∃ t rs, feedAll bs s = some (t, rs) ∧ t.phase = Phase.awaitHeader := by
  induction bs generalizing s with
  | nil => exact ⟨s, [], rfl, hs⟩
  | cons b bs ih =>
    obtain ⟨hb, hbs⟩ := List.forall_mem_cons.mp hclean
    obtain ⟨t, rs, hrun, ht⟩ := ih (s := s.countBadByte.feedReturns none) hs hbs
    exact ⟨t, none :: rs, by rw [feedAll_cons_of_next bs (exec_feed_noise hs hb), hrun]; rfl, ht⟩

/-- The first of nine or more clean bytes lead to `AwaitHeader`, and the others stay there. -/
theorem feedAll_clean_reaches_awaitHeader {bs : List Byte} {s : State} (hs : Phase.Legal s.phase)
    (hlen : 9 ≤ bs.length) (hclean : ∀ b ∈ bs, b ≠ header) :
    ∃ t rs, feedAll bs s = some (t, rs) ∧ t.phase = Phase.awaitHeader := by
  have hfar : s.phase = Phase.awaitHeader ∨ 10 ≤ s.phase.toNat + bs.length := by
    rw [← BitVec.toNat_inj, show Phase.awaitHeader.toNat = 0 from rfl]
    omega
  obtain ⟨n, m, ms, -, hfirst, hm⟩ := feedAll_take_reaches_awaitHeader hs hfar
  obtain ⟨t, rs, hrest, ht⟩ := feedAll_noise_stays hm fun b hb => hclean b (List.mem_of_mem_drop hb)
  refine ⟨t, ms ++ rs, ?_, ht⟩
  rw [← List.take_append_drop n bs, feedAll_append _ _ _ _ _ hfirst, hrest]
  rfl

/-- Settles O50: the eight bytes that do not suffice are a command, a payload and its checksum. -/
theorem nineCleanBytesResynchronize : Obligations.NineCleanBytesResynchronize := by
  refine ⟨fun _ _ hs hlen => feedAll_clean_reaches_awaitHeader hs hlen.ge, fun s hs => ?_⟩
  obtain ⟨t, hrun, ht, -⟩ := feedAll_of_tagged
    (bs := [0xC0#8, 0x01#8, 0x02#8, 0x03#8, 0x04#8, 0x05#8, 0x06#8, 0x15#8])
    (by rw [hs]; decide) (toTagged_of_awaitCommand hs) rfl
  exact ⟨t, _, hrun, ht⟩

theorem highByte_append_lowByte (v : Field) : highByte v ++ lowByte v = v := by
  rw [highByte, lowByte, BitVec.extractLsb'_append_extractLsb'_eq_extractLsb' (show 8 = 0 + 8 from rfl),
    BitVec.extractLsb'_eq_self]

/-- Settles O48: the noise ends in `AwaitHeader`, and a frame from there with its checksum and tail is the
first of R136's three ways. -/
theorem validFrameAfterCleanNoiseDecodes : Obligations.ValidFrameAfterCleanNoiseDecodes := by
  intro s noise p25 p10 id hs hlen hclean
  obtain ⟨m, ms, hnoise, hm⟩ := feedAll_clean_reaches_awaitHeader hs hlen.ge hclean
  obtain ⟨u, rs, hframe, hmatch, -⟩ := frameEndsInThreeWays m (lowByte p25) (highByte p25) (lowByte p10)
    (highByte p10) (lowByte id) (highByte id) (fieldsChecksum p25 p10 id) tail hm
  obtain ⟨rfl, hu, hfailures, hbad⟩ := hmatch rfl
  rw [highByte_append_lowByte, highByte_append_lowByte] at hframe
  exact ⟨m, u, ms, hnoise, hm, hframe, hu, hbad, hfailures⟩

/-! ## A spurious header pair (R186) -/

/-- Payload bytes move the phase code on by their number, as far as `AwaitChecksum`. -/
theorem feedAll_payload_phase {bs : List Byte} {s t : State} {rs : List (Option Reading)}
    (hlo : 2 ≤ s.phase.toNat) (hhi : s.phase.toNat + bs.length ≤ 8)
    (h : feedAll bs s = some (t, rs)) : t.phase.toNat = s.phase.toNat + bs.length := by
  induction bs generalizing s rs with
  | nil => cases h; rfl
  | cons b bs ih =>
    obtain ⟨m, ms, hm, hrun, -⟩ := feedAll_cons_eq_some h
    rw [List.length_cons] at hhi ⊢
    have hnext : m.phase.toNat = s.phase.toNat + 1 :=
      (exec_feed_reverts_or_advances hm).resolve_left fun ⟨_, hout⟩ => hout (by omega)
    rw [ih (by omega) (by omega) hrun, hnext]
    omega

/-- Settles O53: up to six bytes after `Data1` the phase is past `AwaitHeader`, where alone `AA` is taken as
a header; and in `AwaitTail` it is taken as a wrong tail. -/
theorem falseStartSwallowsTheHeader : Obligations.FalseStartSwallowsTheHeader := by
  refine ⟨fun s pre hs hlen => ?_, fun s m pre rs _ _ hpre hm => ?_⟩
  · have hcode : s.phase.toNat = 2 := by rw [hs]; rfl
    obtain ⟨t, rs, hrun, -⟩ := feedAll_toTagged (pre ++ [0xAA#8]) (s := s) (by omega)
    refine ⟨t, rs, hrun, fun ht => ?_⟩
    obtain ⟨m, ms, ns, hpre, hlast⟩ := feedAll_append_eq_some hrun
    obtain ⟨u, us, hu, hnil, -⟩ := feedAll_cons_eq_some hlast
    cases hnil
    obtain ⟨hm, -⟩ := exec_feed_into_awaitCommand hu ht
    have hphase := feedAll_payload_phase hcode.ge (by omega) hpre
    rw [hm, hcode, show Phase.awaitHeader.toNat = 0 from rfl] at hphase
    omega
  · obtain ⟨t, hrun, ht, -⟩ := feedAll_of_tagged (bs := [0xAA#8]) (by rw [hm]; decide)
      (toTagged_of_awaitTail hm) rfl
    exact ⟨t, by rw [feedAll_append _ _ _ _ _ hpre, hrun]; rfl, ht⟩

end Sys2Proof.Machine

namespace Sys2Proof.Machine

/-! ## Rows outside the state that selects them (R74, R134) -/

/-- Settles O16: any instruction but the four that are excluded is a selector row, and a row runs only where
some byte selects it. -/
theorem unselectedRowHasNoEffect : Obligations.UnselectedRowHasNoEffect :=
  fun s _ _ h hreset hidle hfeed hquery =>
    feedRow_of_execSelRow ((execSelRow_eq_exec hreset hidle hfeed hquery s).trans h)

/-- Settles O15: each row's guard is its phase pattern, and a FEED in an illegal phase selects one of them. -/
theorem illegalPhaseRaisesItsFault : Obligations.IllegalPhaseRaisesItsFault :=
  ⟨fun _ _ _ hp => raiseIllegalPhase_fault.mpr ⟨beq_iff_eq.mpr hp, rfl⟩,
    fun _ _ _ hp => raiseIllegalPhase_fault.mpr ⟨beq_iff_eq.mpr hp, rfl⟩,
    fun _ b hp => exec_feed_of_not_legal b hp⟩

/-! ## What the framing rows leave unchanged (R110 to R113, R130 to R133) -/

/-- Settles O31, row by row: the effect of a row that runs shows what it keeps, and a register it writes is
one whose clause excludes the row. -/
theorem framingRowsFrame : Obligations.FramingRowsFrame := by
  intro i b s t hi h
  simp only [List.mem_cons, List.not_mem_nil, or_false] at hi
  obtain rfl | rfl | rfl | rfl | rfl | rfl | rfl | rfl := hi
  all_goals
    obtain ⟨-, rfl⟩ := runRow_next.mp h
    simp

/-! ## The word that a step takes (R58, R83) -/

/-- Settles O23: the fetch gives what the oldest word decodes to, and IDLE where there is none. -/
theorem stepRunsTheDecodedOperation : Obligations.StepRunsTheDecodedOperation :=
  ⟨fun _ _ _ _ => step_of_decode_ok, fun _ => step_of_input_nil⟩

theorem decode_feedWord (b : Byte) : decode (feedWord b) = .ok (.feed b) :=
  decode_edgeWord_valid b

/-- A word placed before the others runs on the state it was placed in. -/
theorem step_cons_input {w : HostWord} {i : Instr} (s : State) (hw : decode w = .ok i) :
    step { s with input := w :: s.input } = exec i s :=
  step_of_decode_ok rfl hw

/-! ### A word of the opcode table (log entry 5) -/

/-- `s` in the phase of a selector word, with the checksum clear where a row's condition reads it. -/
def State.atSelector (s : State) (sel : Selector) : State :=
  { s with
    phase := selPhase sel
    runningChecksum := if selPhase sel = Phase.awaitChecksum then checksumClear else s.runningChecksum }

theorem withFetchWord_selector (s : State) {nbits : Nat} (w : Nat) (h8 : ¬ nbits ≤ 8) (h16 : nbits ≤ 16) :
    s.withFetchWord nbits w =
      { s.atSelector (BitVec.ofNat 12 w) with
        input := feedWord (selByte (BitVec.ofNat 12 w)) :: s.input } := by
  have h1 : ¬ nbits ≤ 1 := by omega
  simp only [State.withFetchWord, placeTableWord, if_neg h1, if_neg h8, if_pos h16, State.atSelector]

/-- In a phase other than `AwaitChecksum` the selected row does not depend on the checksum. -/
theorem feedRow_atSelector (s : State) (sel : Selector) (b : Byte) :
    feedRow (s.atSelector sel).runningChecksum (selPhase sel) b = feedRow checksumClear (selPhase sel) b := by
  simp only [State.atSelector]
  split
  · rfl
  · next hp => simp only [feedRow, if_neg hp]

/-- There a FEED of the word's byte runs the row that the table reads from the word. -/
theorem exec_feed_atSelector {sel : Selector} {i : Instr} (s : State)
    (h : decodeSel checksumClear sel = some i) :
    exec (.feed (selByte sel)) (s.atSelector sel) = exec i (s.atSelector sel) := by
  have hrow : feedRow checksumClear (selPhase sel) (selByte sel) = i := by
    rw [← selWord_parts sel, decodeSel_selWord] at h
    exact Option.some.inj h
  rw [feedRunsTheRowOfItsPhase, show (s.atSelector sel).phase = selPhase sel from rfl, feedRow_atSelector,
    hrow]

/-- Settles O24, format by format: a query or a port pattern is decoded by the step as by the table; a
selector word is presented as a FEED that selects the row the table reads. -/
theorem placedTableWordRuns : Obligations.PlacedTableWordRuns := by
  intro s nbits w i h
  simp only [decodeTableWord] at h
  split_ifs at h with h1 h8 h16
  · refine ⟨s, ?_, rfl, ⟨rfl, rfl⟩, rfl, rfl, rfl⟩
    simp only [State.withFetchWord, placeTableWord, if_pos h1]
    exact step_cons_input s (by simp only [decode, h])
  · refine ⟨s, ?_, rfl, ⟨rfl, rfl⟩, rfl, rfl, rfl⟩
    simp only [State.withFetchWord, placeTableWord, if_neg h1, if_pos h8]
    exact step_cons_input s (by simp only [decode, h])
  · refine ⟨s.atSelector (BitVec.ofNat 12 w), ?_, rfl, ⟨rfl, rfl⟩, rfl, rfl, rfl⟩
    rw [withFetchWord_selector s w h8 h16, ← exec_feed_atSelector s h]
    exact step_cons_input (s.atSelector _) (decode_feedWord _)

/-! ## An illegal phase ends the run at its first FEED (R164) -/

section
variable {s : State} {w : HostWord} {rest : List HostWord}

/-- Idle edges and QUERYs take their word and leave the phase (R93, R99). -/
theorem step_of_idle_or_query (hin : s.input = w :: rest)
    (hw : (∃ c, w = .port 0b00#2 c) ∨ w = .query 0 ∨ w = .query 1) :
    ∃ t, step s = .next t ∧ t.phase = s.phase ∧ t.input = rest := by
  obtain ⟨c, rfl⟩ | rfl | rfl := hw
  · exact ⟨_, step_of_decode_ok hin (decode_edgeWord_idle c), rfl, rfl⟩
  · exact ⟨_, step_of_decode_ok hin rfl, rfl, rfl⟩
  · exact ⟨_, step_of_decode_ok hin rfl, rfl, rfl⟩

/-- The FEED faults at its own step, and the words after it are never taken. -/
theorem core_run_feed_of_illegal {b : Byte} (m : Nat) (hp : 10 ≤ s.phase.toNat)
    (hin : s.input = feedWord b :: rest) : core.run (m + 1) s = .fault (.illegalPhase s.phase) := by
  apply core_run_of_fault
  rw [step_of_decode_ok hin (decode_feedWord b)]
  exact exec_feed_of_not_legal b (Nat.not_le.mpr hp)

end

/-- Settles O44, by induction on the words before the FEED: each leaves the phase as it is. -/
theorem faultEndsTheRun : Obligations.FaultEndsTheRun := by
  refine ⟨fun s b rest m => core_run_feed_of_illegal m, fun s pre b rest m hp hin hpre => ?_⟩
  induction pre generalizing s with
  | nil =>
    rw [List.length_nil, Nat.zero_add]
    exact core_run_feed_of_illegal m hp hin
  | cons w pre ih =>
    obtain ⟨hw, hpre⟩ := List.forall_mem_cons.mp hpre
    obtain ⟨t, hstep, hphase, hinput⟩ := step_of_idle_or_query hin hw
    rw [List.length_cons, Nat.add_right_comm, core_run_of_next _ hstep, ← hphase]
    exact ih t (hphase ▸ hp) hinput hpre

end Sys2Proof.Machine
